-- ==== Sys2Proof/Word.lean ====
section
/-! DEFINITION. The widths the spec gives names to: a byte (00_scope.md R10), the 32-bit register word (R5 `WORD`)
and the 64-bit counter, time slice and timestamp (R5 `CTR_W`). All are unsigned (R9). -/
namespace Sys2Proof

/-- A byte (00_scope.md R10). -/
abbrev Byte := BitVec 8

/-- A host-visible register or a command word (00_scope.md R5, `WORD`). -/
abbrev Word := BitVec 32

/-- A counter, time slice or timestamp (00_scope.md R5, `CTR_W`; 41_counter.md R140). -/
abbrev DWord := BitVec 64

end Sys2Proof
end

