-- ==== Sys2Proof/Syntax.lean ====
section
/-! DEFINITION. The command set (30_encoding.md R90 to R95): one constructor per row of opcode_table.json. The one
operand field of a command word is its flag, bit 8 (R94). -/
namespace Sys2Proof

/-- The five commands (30_encoding.md R93). -/
inductive Instr where
  /-- KEYSET, format K; `gen` is GEN (R92): the staged bytes are a generated secret. -/
  | keyset (gen : Bool)
  /-- SLICE, format D; `dflt` is DFLT (R91): the data operand is absent. -/
  | slice (dflt : Bool)
  /-- HMAC, format D. -/
  | hmac (dflt : Bool)
  /-- CODE, format D. -/
  | code (dflt : Bool)
  /-- VERIFY, format D. -/
  | verify (dflt : Bool)
  deriving DecidableEq, Repr

/-- Why a 32-bit word is no command (30_encoding.md R95). -/
inductive DecodeError where
  /-- Some bit of the field Z, bits 31:9, is set. -/
  | reservedBitSet
  /-- The opcode, bits 7:0, is none of 1 to 5. -/
  | unassignedOpcode
  deriving DecidableEq, Repr

end Sys2Proof
end

