-- ==== Sys2Proof/WellFormed.lean ====
section
/-! DEFINITION. Well-formedness. A command's one operand is a single bit used as is (30_encoding.md R94), so every
term of `Instr` is well formed; what can be ill formed is a command WORD, by the two checks of R95. -/
namespace Sys2Proof

/-- Every command term is well formed: its only field is a one-bit flag (30_encoding.md R94). -/
def Instr.wellFormed : Instr → Bool
  | .keyset _ => true
  | .slice _ => true
  | .hmac _ => true
  | .code _ => true
  | .verify _ => true

/-- The opcode byte of a word is one of the five assigned ones (30_encoding.md R93, R95). -/
def opcodeAssigned (w : Word) : Bool :=
  decide (1 ≤ w.toNat % 256) && decide (w.toNat % 256 ≤ 5)

/-- The field Z, bits 31:9, is zero (30_encoding.md R91, R92). -/
def reservedClear (w : Word) : Bool :=
  decide (w.toNat / 512 = 0)

/-- A legal command word (30_encoding.md R95). -/
def wordWellFormed (w : Word) : Bool :=
  opcodeAssigned w && reservedClear w

end Sys2Proof
end

