-- ==== Sys2Proof/Decode.lean ====
section
/-! DEFINITION. Decoding and encoding of command words (30_encoding.md R90 to R95). A word has one meaning whatever
the configuration (R90). A word is written whole by the host, so no byte order arises (20_memory.md R70). -/
namespace Sys2Proof

/-- OP, bits 7:0 of a command word (30_encoding.md R91, R92). -/
def opField (w : Word) : BitVec 8 := w.extractLsb' 0 8

/-- DFLT or GEN, bit 8 (30_encoding.md R91, R92). -/
def flagField (w : Word) : Bool := w.getLsbD 8

/-- Z, bits 31:9 (30_encoding.md R91, R92). -/
def zField (w : Word) : BitVec 23 := w.extractLsb' 9 23

/-- The command a word stands for, or why it is illegal (30_encoding.md R93, R95). -/
def decode (w : Word) : Except DecodeError Instr :=
  if zField w ≠ 0#23 then .error .reservedBitSet
  else if opField w = 0x01#8 then .ok (.keyset (flagField w))
  else if opField w = 0x02#8 then .ok (.slice (flagField w))
  else if opField w = 0x03#8 then .ok (.hmac (flagField w))
  else if opField w = 0x04#8 then .ok (.code (flagField w))
  else if opField w = 0x05#8 then .ok (.verify (flagField w))
  else .error .unassignedOpcode

/-- Bit 8 set or clear. -/
def flagBit (f : Bool) : Word := if f then 0x00000100#32 else 0x00000000#32

/-- The word of a command: its `match` of the table of 30_encoding.md R93, with the flag in bit 8. -/
def encode : Instr → Word
  | .keyset gen => 0x00000001#32 ||| flagBit gen
  | .slice dflt => 0x00000002#32 ||| flagBit dflt
  | .hmac dflt => 0x00000003#32 ||| flagBit dflt
  | .code dflt => 0x00000004#32 ||| flagBit dflt
  | .verify dflt => 0x00000005#32 ||| flagBit dflt

/-- The word a host gives as `nbits` bits of number `w`, the bits above being zero. -/
def tableWord (nbits w : Nat) : Word := BitVec.ofNat 32 (w % 2 ^ nbits)

/-- The instruction the decoder reads from a word numbered as opcode_table.json numbers it. A command is one 32-bit
word (30_encoding.md R90), so a longer one is none. -/
def decodeTableWord (nbits w : Nat) : Option Instr :=
  if nbits ≤ 32 then
    match decode (tableWord nbits w) with
    | .ok i => some i
    | .error _ => none
  else none

end Sys2Proof
end

