-- ==== Sys2Proof/Config.lean ====
section
/-! DEFINITION. The fixed parameters of the block (00_scope.md R5). The two OPEN parameters of R5, `time_in` and the
latency, are inputs held in State (its fields `timeIn` and `agenda`), not constants. -/
namespace Sys2Proof.Config

/-- The identity word, "OTP" and command-set version 1 (10_state.md R21). -/
def idValue : Word := 0x4F545001#32

/-- Bytes of the register window (20_memory.md R60). -/
abbrev windowBytes : Nat := 512

/-- `KEY_MAX`, the longest secret the block stores (00_scope.md R5, decision D8). -/
abbrev keyMax : Nat := 128

/-- `KEY_MIN_GEN`, the shortest generated secret (00_scope.md R5, 40_key.md R122). -/
abbrev keyMinGen : Nat := 16

/-- `DIGITS_MIN` (00_scope.md R5). -/
abbrev digitsMin : Nat := 1

/-- `DIGITS_MAX` (00_scope.md R5). -/
abbrev digitsMax : Nat := 10

/-- The largest counter, `2^64 - 1` (41_counter.md R140). -/
abbrev ctrMax : Nat := 2 ^ 64 - 1

end Sys2Proof.Config
end

