-- ==== Sys2Proof/Machine/State.lean ====
section
/-! DEFINITION. The state of the block (10_state.md), the inputs the step reads, the events of its three agents, and
the reasons a step can stop. All of it is plain data. -/
namespace Sys2Proof.Machine

/-- CFG.MODE (10_state.md R30): 0 is HOTP, 1 is TOTP. -/
inductive Mode where
  | hotp
  | totp
  deriving DecidableEq, Repr

/-- CFG.ALG (10_state.md R30, 42_sha.md R160): 0 is SHA-1, 1 is SHA-256, 2 is SHA-512. Code 3 cannot be stored. -/
inductive Alg where
  | sha1
  | sha256
  | sha512
  deriving DecidableEq, Repr

/-- The four fields of CFG (10_state.md R30). That `digits` lies in 1 to 10 is an invariant (`State.Inv`). -/
structure Cfg where
  mode : Mode
  alg : Alg
  digits : BitVec 4
  adj : BitVec 8
  deriving DecidableEq, Repr

/-- The error kinds and their reserved numbers (60_exceptions.md R261). Kinds 2 and 4 are never raised. -/
inductive ErrKind where
  | noSecretSet
  | invalidSecretFormat
  | invalidSecretLength
  | unsupportedPlatform
  | illegalCommand
  deriving DecidableEq, Repr

/-- The registers of the window (10_state.md R20); `reserved` is every offset of 20_memory.md R65. -/
inductive Reg where
  | id
  | cmd
  | status
  | errcode
  | ie
  | cfg
  | period
  | dataLo
  | dataHi
  | candLen
  | cand (k : Fin 3)
  | ctrLo
  | ctrHi
  | codeVal
  | code (k : Fin 3)
  | keylen
  | digest (k : Fin 16)
  | keyw (k : Fin 32)
  | reserved
  deriving DecidableEq, Repr

/-- One event of one of the three agents of 00_scope.md R6. The list of coming events is the interleaving of
20_memory.md R75. -/
inductive Event where
  /-- The host reads `size` bytes at byte offset `off` (20_memory.md R61, R62). -/
  | read (off size : Nat)
  /-- The host writes the word `v` as `size` bytes at byte offset `off` (20_memory.md R61, R63). -/
  | write (off size : Nat) (v : Word)
  /-- The engine's turn: it completes a command in progress (30_encoding.md R97). -/
  | engine
  /-- The platform drives `time_in` to `t` (10_state.md R39). -/
  | timeIn (t : DWord)
  /-- The platform drives `rst`: asserted or released (70_reset_and_hazards.md R300). -/
  | rst (asserted : Bool)
  deriving DecidableEq, Repr

/-- Reasons the machine stops. No command raises one; host accesses do, in `Machine.hostAccess`. -/
inductive Fault where
  /-- An access to a byte offset at or above 0x200, which no word of the window has (20_memory.md R60). Safe: the
  model stops where the spec has no such access. -/
  | outsideWindow (off : Nat)
  /-- An access while `rst` is asserted: "a model has no host step during reset" (70_reset_and_hazards.md R300,
  93_implementation_defined.md U6 "stuck"). Safe: the model stops where the spec defines nothing. -/
  | accessDuringReset
  deriving DecidableEq, Repr

/-- Reasons the model gives no meaning. -/
inductive Refusal where
  /-- An instruction that has no meaning yet, raised by an arm of `exec`. Safe. No arm uses it. -/
  | notModelled (mnemonic : String)
  /-- An access that is not one aligned 32-bit word: "A model refuses such an access: it has no step" (20_memory.md
  R71, 93_implementation_defined.md U5), raised by `Machine.hostAccess`. Safe. -/
  | notOneAlignedWord (off size : Nat)
  deriving DecidableEq, Repr

/-- Everything the spec gives the machine (10_state.md), and the inputs a step reads. -/
structure State where
  /-- `secret`, hidden (10_state.md R24). -/
  secret : Option (List Byte)
  /-- `stage[0..127]`, hidden (10_state.md R25). -/
  stage : Vector Byte 128
  /-- KEYLEN bits 7:0 (10_state.md R26). -/
  keylen : BitVec 8
  /-- `cmd_latch`, hidden (10_state.md R27). -/
  cmdLatch : Word
  /-- `now_latch`, hidden (10_state.md R27). -/
  nowLatch : DWord
  /-- STATUS.BUSY (10_state.md R23). -/
  busy : Bool
  /-- STATUS.DONE (10_state.md R23). -/
  done : Bool
  /-- STATUS.ERR (10_state.md R23). -/
  err : Bool
  /-- STATUS.MATCH (10_state.md R23). -/
  matched : Bool
  /-- STATUS.CFGREJ (10_state.md R23). -/
  cfgRej : Bool
  /-- STATUS.BUSYERR (10_state.md R23). -/
  busyErr : Bool
  /-- ERRCODE bits 7:0 (10_state.md R28). -/
  errcode : BitVec 8
  /-- IE: bit 0 DONE_IE, bit 1 ERR_IE (10_state.md R29). -/
  ie : BitVec 2
  /-- CFG (10_state.md R30). -/
  cfg : Cfg
  /-- PERIOD (10_state.md R31). -/
  period : Word
  /-- DATA_LO (10_state.md R32). -/
  dataLo : Word
  /-- DATA_HI (10_state.md R32). -/
  dataHi : Word
  /-- CAND_LEN bits 7:0 (10_state.md R33). -/
  candLen : BitVec 8
  /-- `cand[0..11]` (10_state.md R34). -/
  cand : Vector Byte 12
  /-- CTR_LO (10_state.md R35). -/
  ctrLo : Word
  /-- CTR_HI (10_state.md R35). -/
  ctrHi : Word
  /-- CODE_VAL (10_state.md R36). -/
  codeVal : Word
  /-- `code[0..11]` (10_state.md R37). -/
  code : Vector Byte 12
  /-- `digest[0..63]` (10_state.md R38). -/
  digest : Vector Byte 64
  /-- The input `time_in` (10_state.md R39); a free input, see notes/assumptions/2.md. -/
  timeIn : DWord
  /-- The input `rst`: true while asserted (70_reset_and_hazards.md R300). -/
  rst : Bool
  /-- The word the port last returned to the host, `rdata` (20_memory.md R61); see notes/assumptions/4.md. -/
  rdata : Word
  /-- The model's own field: the coming events, the next first; see notes/assumptions/1.md. -/
  agenda : List Event
  deriving DecidableEq, Repr

/-- The reset configuration 0x00000160 (10_state.md R30, R40). -/
def Cfg.reset : Cfg := { mode := .hotp, alg := .sha1, digits := 6#4, adj := 1#8 }

/-- The machine right after reset (10_state.md R40, 70_reset_and_hazards.md R300). The inputs `timeIn` and `rst`, the
port's `rdata` and the model's `agenda` have the values of notes/assumptions/1.md to 4.md. -/
def State.reset : State where
  secret := none
  stage := Vector.replicate 128 0x00#8
  keylen := 0#8
  cmdLatch := 0#32
  nowLatch := 0#64
  busy := false
  done := false
  err := false
  matched := false
  cfgRej := false
  busyErr := false
  errcode := 0#8
  ie := 0#2
  cfg := Cfg.reset
  period := 30#32
  dataLo := 0#32
  dataHi := 0#32
  candLen := 0#8
  cand := Vector.replicate 12 0x00#8
  ctrLo := 0#32
  ctrHi := 0#32
  codeVal := 0#32
  code := Vector.replicate 12 0x00#8
  digest := Vector.replicate 64 0x00#8
  timeIn := 0#64
  rst := false
  rdata := 0#32
  agenda := []

end Sys2Proof.Machine
end

