-- ==== Sys2Proof/Machine/Ops.lean ====
section
/-! DEFINITION. The named operations: byte strings and their packing into words (00_scope.md R10, 20_memory.md R70),
the 64-bit views of register pairs, acceptance (30_encoding.md R96), the end of a completion (R97), a failing command
(60_exceptions.md R260: this block's exception) and reset (70_reset_and_hazards.md R300). -/
namespace Sys2Proof.Machine

/-! ### Byte strings -/

/-- `be32(s, i)`: four bytes from index `i`, the first most significant (00_scope.md R10). -/
def be32 (s : List Byte) (i : Nat) : Word :=
  BitVec.ofNat 32 ((s.getD i 0#8).toNat * 2 ^ 24 + (s.getD (i + 1) 0#8).toNat * 2 ^ 16
    + (s.getD (i + 2) 0#8).toNat * 2 ^ 8 + (s.getD (i + 3) 0#8).toNat)

/-- `be64(s, i)`: likewise over eight bytes (00_scope.md R10). -/
def be64 (s : List Byte) (i : Nat) : DWord :=
  BitVec.ofNat 64 ((be32 s i).toNat * 2 ^ 32 + (be32 s (i + 4)).toNat)

/-- `ser_be(v, n)`: byte `j` is `(v >> (8 * (n - 1 - j))) and 0xFF` (00_scope.md R10). -/
def serBe (v n : Nat) : List Byte :=
  (List.range n).map fun j => BitVec.ofNat 8 (v >>> (8 * (n - 1 - j)))

/-- Word `k` of a byte-string register group: `be32(string, 4k)` (20_memory.md R70). -/
def wordOf {n : Nat} (b : Vector Byte n) (k : Nat) : Word := be32 b.toList (4 * k)

/-- Store the word `v` as word `k` of a group: bytes `4k` to `4k + 3`, most significant first (20_memory.md R70). -/
def setWord {n : Nat} (b : Vector Byte n) (k : Nat) (v : Word) : Vector Byte n :=
  (((b.setIfInBounds (4 * k) (v.extractLsb' 24 8)).setIfInBounds (4 * k + 1) (v.extractLsb' 16 8)).setIfInBounds
    (4 * k + 2) (v.extractLsb' 8 8)).setIfInBounds (4 * k + 3) (v.extractLsb' 0 8)

/-- Replace the first bytes of a group by the string `l`; the bytes after it stay (43_hmac.md R205, 44_code.md
R225). -/
def overwriteFront {n : Nat} (b : Vector Byte n) (l : List Byte) : Vector Byte n :=
  Vector.ofFn fun i => l.getD i.val b[i]

/-- A group of `n` bytes 0x00. -/
def zeroBytes (n : Nat) : Vector Byte n := Vector.replicate n 0x00#8

/-! ### Register pairs -/

/-- `x[DATA] = x[DATA_HI] * 2^32 + x[DATA_LO]` (10_state.md R32). -/
def State.data (s : State) : DWord := s.dataHi ++ s.dataLo

/-- The 64-bit counter result of CTR_HI and CTR_LO (10_state.md R35). -/
def State.ctr (s : State) : DWord := s.ctrHi ++ s.ctrLo

/-- `x[CTR] <- c` (10_state.md R35). -/
def State.setCtr (s : State) (c : DWord) : State :=
  { s with ctrHi := c.extractLsb' 32 32, ctrLo := c.extractLsb' 0 32 }

/-! ### Acceptance, completion, failure -/

/-- Acceptance of a command word (30_encoding.md R96); the word is not examined. -/
def State.accept (s : State) (w : Word) : State :=
  { s with
    cmdLatch := w
    nowLatch := s.timeIn
    busy := true
    done := false
    err := false
    matched := false
    errcode := 0#8
    ctrLo := 0#32
    ctrHi := 0#32
    codeVal := 0#32
    code := zeroBytes 12
    digest := zeroBytes 64 }

/-- The last two lines of every completion: BUSY <- 0, DONE <- 1 (30_encoding.md R97). -/
def State.finish (s : State) : State := { s with busy := false, done := true }

/-- The number of an error kind in ERRCODE (60_exceptions.md R261). -/
def ErrKind.code : ErrKind → BitVec 8
  | .noSecretSet => 1#8
  | .invalidSecretFormat => 2#8
  | .invalidSecretLength => 3#8
  | .unsupportedPlatform => 4#8
  | .illegalCommand => 5#8

/-- `raise <Error>` (00_scope.md R11, 60_exceptions.md R260): ERR <- 1, ERRCODE <- the code, nothing else. -/
def State.raise (s : State) (e : ErrKind) : State := { s with err := true, errcode := e.code }

/-- A failing completion, this block's exception (60_exceptions.md R260, R276): the error is recorded and the command
ends as every command ends. Nothing is saved and no handler runs. -/
def State.failWith (s : State) (e : ErrKind) : State := (s.raise e).finish

/-- The host's acknowledgement, this block's return from an exception (60_exceptions.md R277): write-one-to-clear of
DONE, ERR, CFGREJ and BUSYERR (10_state.md R23). ERRCODE and MATCH stay. -/
def State.acknowledge (s : State) (v : Word) : State :=
  { s with
    done := s.done && !v.getLsbD 1
    err := s.err && !v.getLsbD 2
    cfgRej := s.cfgRej && !v.getLsbD 5
    busyErr := s.busyErr && !v.getLsbD 6 }

/-- Reset of the block: all its state at the values of 10_state.md R40; a command in progress is abandoned
(70_reset_and_hazards.md R300). The inputs, the host's `rdata` and the agenda are not the block's and stay. -/
def State.resetBlock (s : State) : State :=
  { State.reset with timeIn := s.timeIn, rst := s.rst, rdata := s.rdata, agenda := s.agenda }

end Sys2Proof.Machine
end

