-- ==== Sys2Proof/Machine/Flags.lean ====
section
/-! DEFINITION. The STATUS word and the interrupt output (10_state.md R23, R29; 60_exceptions.md R270). -/
namespace Sys2Proof.Machine

/-- STATUS.KEYVALID, a view of the hidden secret (10_state.md R23). -/
def State.keyValid (s : State) : Bool := s.secret.isSome

/-- STATUS as the host reads it: BUSY 0, DONE 1, ERR 2, MATCH 3, KEYVALID 4, CFGREJ 5, BUSYERR 6, the rest 0
(10_state.md R23). -/
def State.statusWord (s : State) : Word :=
  BitVec.ofNat 32 (s.busy.toNat + 2 * s.done.toNat + 4 * s.err.toNat + 8 * s.matched.toNat + 16 * s.keyValid.toNat
    + 32 * s.cfgRej.toNat + 64 * s.busyErr.toNat)

/-- The output `irq` (60_exceptions.md R270). -/
def State.irq (s : State) : Bool := (s.ie.getLsbD 0 && s.done) || (s.ie.getLsbD 1 && s.err)

end Sys2Proof.Machine
end

