-- ==== Sys2Proof/Machine/Operands.lean ====
section
/-! DEFINITION. The register window as operand space: which register an offset names (10_state.md R20, 20_memory.md
R65), what a read returns (R62) and what a write does (R63). -/
namespace Sys2Proof.Machine

/-- The register at a byte offset of the window (10_state.md R20); every other offset is reserved (20_memory.md
R65). -/
def regAt (off : Nat) : Reg :=
  if off = 0x000 then .id
  else if off = 0x004 then .cmd
  else if off = 0x008 then .status
  else if off = 0x00C then .errcode
  else if off = 0x010 then .ie
  else if off = 0x014 then .cfg
  else if off = 0x018 then .period
  else if off = 0x020 then .dataLo
  else if off = 0x024 then .dataHi
  else if off = 0x028 then .candLen
  else if 0x030 ≤ off ∧ off ≤ 0x038 then .cand (Fin.ofNat 3 ((off - 0x030) / 4))
  else if off = 0x040 then .ctrLo
  else if off = 0x044 then .ctrHi
  else if off = 0x048 then .codeVal
  else if 0x050 ≤ off ∧ off ≤ 0x058 then .code (Fin.ofNat 3 ((off - 0x050) / 4))
  else if off = 0x060 then .keylen
  else if 0x080 ≤ off ∧ off ≤ 0x0BC then .digest (Fin.ofNat 16 ((off - 0x080) / 4))
  else if 0x100 ≤ off ∧ off ≤ 0x17C then .keyw (Fin.ofNat 32 ((off - 0x100) / 4))
  else .reserved

/-- The code of CFG.MODE (10_state.md R30). -/
def Mode.bits : Mode → BitVec 1
  | .hotp => 0#1
  | .totp => 1#1

/-- The code of CFG.ALG (10_state.md R30). -/
def Alg.bits : Alg → BitVec 2
  | .sha1 => 0#2
  | .sha256 => 1#2
  | .sha512 => 2#2

/-- CFG as the host reads it: MODE 0, ALG 2:1, DIGITS 7:4, ADJ 15:8, the rest 0 (10_state.md R30). -/
def Cfg.word (c : Cfg) : Word :=
  BitVec.ofNat 32 (c.mode.bits.toNat + 2 * c.alg.bits.toNat + 16 * c.digits.toNat + 256 * c.adj.toNat)

/-- A value the host may write to CFG: ALG is not 3, DIGITS is 1 to 10, the reserved bits are 0 (10_state.md R30). -/
def cfgLegal (v : Word) : Bool :=
  v.extractLsb' 1 2 != 3#2 && decide (Config.digitsMin ≤ (v.extractLsb' 4 4).toNat)
    && decide ((v.extractLsb' 4 4).toNat ≤ Config.digitsMax) && !v.getLsbD 3 && v.extractLsb' 16 16 == 0#16

/-- The four fields of a written CFG value (10_state.md R30); used on legal values only. -/
def cfgOfWord (v : Word) : Cfg where
  mode := if v.getLsbD 0 then .totp else .hotp
  alg := if v.extractLsb' 1 2 = 0#2 then .sha1 else if v.extractLsb' 1 2 = 1#2 then .sha256 else .sha512
  digits := v.extractLsb' 4 4
  adj := v.extractLsb' 8 8

/-- `RegRead` (20_memory.md R62): the register's value; 0 for a write-only register and for a reserved offset. -/
def regRead (s : State) : Reg → Word
  | .id => Config.idValue
  | .cmd => 0#32
  | .status => s.statusWord
  | .errcode => s.errcode.setWidth 32
  | .ie => s.ie.setWidth 32
  | .cfg => s.cfg.word
  | .period => s.period
  | .dataLo => s.dataLo
  | .dataHi => s.dataHi
  | .candLen => s.candLen.setWidth 32
  | .cand k => wordOf s.cand k.val
  | .ctrLo => s.ctrLo
  | .ctrHi => s.ctrHi
  | .codeVal => s.codeVal
  | .code k => wordOf s.code k.val
  | .keylen => s.keylen.setWidth 32
  | .digest k => wordOf s.digest k.val
  | .keyw _ => 0#32
  | .reserved => 0#32

/-- A write to CFG while idle (10_state.md R30): replaced whole, or refused with CFGREJ. -/
def writeCfg (s : State) (v : Word) : State :=
  if cfgLegal v then { s with cfg := cfgOfWord v } else { s with cfgRej := true }

/-- A write to PERIOD while idle (10_state.md R31): 0 is refused with CFGREJ. -/
def writePeriod (s : State) (v : Word) : State :=
  if v ≠ 0#32 then { s with period := v } else { s with cfgRej := true }

/-- A write while BUSY = 0 (20_memory.md R63): a write to CMD is acceptance (30_encoding.md R96); a write to a
read-only register or a reserved offset does nothing (R64, R65). -/
def writeIdle (s : State) (v : Word) : Reg → State
  | .id => s
  | .cmd => s.accept v
  | .status => s.acknowledge v
  | .errcode => s
  | .ie => { s with ie := v.extractLsb' 0 2 }
  | .cfg => writeCfg s v
  | .period => writePeriod s v
  | .dataLo => { s with dataLo := v }
  | .dataHi => { s with dataHi := v }
  | .candLen => { s with candLen := v.extractLsb' 0 8 }
  | .cand k => { s with cand := setWord s.cand k.val v }
  | .ctrLo => s
  | .ctrHi => s
  | .codeVal => s
  | .code _ => s
  | .keylen => { s with keylen := v.extractLsb' 0 8 }
  | .digest _ => s
  | .keyw k => { s with stage := setWord s.stage k.val v }
  | .reserved => s

/-- `RegWrite` (20_memory.md R63): while BUSY every write sets BUSYERR and changes nothing else (R66). -/
def regWrite (s : State) (v : Word) (r : Reg) : State :=
  if s.busy then { s with busyErr := true } else writeIdle s v r

end Sys2Proof.Machine
end

