-- ==== Sys2Proof/Machine/Counter.lean ====
section
/-! DEFINITION. The counter frontend (41_counter.md): time slice, data operand, counter, serialisation, and the command
SLICE. -/
namespace Sys2Proof.Machine

/-- `timeslice(ts) = ts div x[PERIOD]`, exact floor division of unsigned integers (41_counter.md R141). PERIOD is
never 0 in a state that meets `State.Inv`. -/
def timeslice (s : State) (ts : DWord) : DWord := BitVec.ofNat 64 (ts.toNat / s.period.toNat)

/-- `resolve_data(dflt)`: DATA, or the default of the mode (41_counter.md R142). -/
def resolveData (s : State) (dflt : Bool) : DWord :=
  if dflt then
    match s.cfg.mode with
    | .hotp => 0#64
    | .totp => s.nowLatch
  else s.data

/-- `resolve_counter(dflt)`: the counter that HMAC and CODE hash (41_counter.md R143). -/
def resolveCounter (s : State) (dflt : Bool) : DWord :=
  match s.cfg.mode with
  | .hotp => resolveData s dflt
  | .totp => timeslice s (resolveData s dflt)

/-- `ser_counter(c)`: eight bytes, most significant first (41_counter.md R145, 20_memory.md R67). -/
def serCounter (c : DWord) : List Byte := serBe c.toNat 8

/-- The timestamp SLICE divides: DATA, or `now_latch` in either mode (41_counter.md R144, 90_conflicts.md C7). -/
def sliceTimestamp (s : State) (dflt : Bool) : DWord := if dflt then s.nowLatch else s.data

/-- SLICE (41_counter.md R144): CTR <- timeslice of the timestamp; it needs no secret and cannot fail. -/
def execSlice (dflt : Bool) (s : State) : Host.Outcome State Fault Refusal :=
  .next (s.setCtr (timeslice s (sliceTimestamp s dflt))).finish

end Sys2Proof.Machine
end

