-- ==== Sys2Proof/Machine/Sha.lean ====
section
/-! DEFINITION. The hash core (42_sha.md): padding, SHA-1, SHA-256, SHA-512 and their selection by CFG.ALG. The rules
below R160 are general knowledge of the Secure Hash Standard, as the spec says (93_implementation_defined.md G1).
A message schedule is built as a list whose head is the newest word, so `W[t - k]` stands at index `k - 1`. -/
namespace Sys2Proof.Machine

/-! ### Parameters and padding -/

/-- `B_alg`, the block size in bytes (42_sha.md R160). -/
def blockSize : Alg → Nat
  | .sha1 => 64
  | .sha256 => 64
  | .sha512 => 128

/-- `L_alg`, the digest size in bytes (42_sha.md R160). -/
def digestSize : Alg → Nat
  | .sha1 => 20
  | .sha256 => 32
  | .sha512 => 64

/-- The length field in bytes (42_sha.md R160). -/
def lengthField : Alg → Nat
  | .sha1 => 8
  | .sha256 => 8
  | .sha512 => 16

/-- `z`, the smallest count of zero bytes that fills the last block (42_sha.md R162). -/
def padZeros (b f l : Nat) : Nat := (b - (l + 1 + f) % b) % b

/-- `pad_B(M)` with block size `b` and length field `f` (42_sha.md R162). -/
def pad (b f : Nat) (m : List Byte) : List Byte :=
  m ++ [0x80#8] ++ List.replicate (padZeros b f m.length) 0x00#8 ++ serBe (8 * m.length) f

/-- The blocks of `b` bytes of a padded message, in order (42_sha.md R162). -/
def blocks (b : Nat) (m : List Byte) : List (List Byte) :=
  (List.range (m.length / b)).map fun i => (m.drop (i * b)).take b

/-! ### SHA-1 -/

/-- The five chaining words (42_sha.md R166). -/
structure Sha1Words where
  a : Word
  b : Word
  c : Word
  d : Word
  e : Word
  deriving DecidableEq, Repr

/-- The initial hash value (42_sha.md R165). -/
def sha1Init : Sha1Words :=
  { a := 0x67452301#32, b := 0xEFCDAB89#32, c := 0x98BADCFE#32, d := 0x10325476#32, e := 0xC3D2E1F0#32 }

/-- K(t) (42_sha.md R165). -/
def sha1K (t : Nat) : Word :=
  if t < 20 then 0x5A827999#32 else if t < 40 then 0x6ED9EBA1#32 else if t < 60 then 0x8F1BBCDC#32 else 0xCA62C1D6#32

/-- f(t; b, c, d) (42_sha.md R165). -/
def sha1F (t : Nat) (b c d : Word) : Word :=
  if t < 20 then (b &&& c) ||| (~~~b &&& d)
  else if t < 40 then b ^^^ c ^^^ d
  else if t < 60 then (b &&& c) ||| (b &&& d) ||| (c &&& d)
  else b ^^^ c ^^^ d

/-- `n` further words of the schedule, newest first (42_sha.md R166). -/
def sha1Extend : Nat → List Word → List Word
  | 0, w => w
  | n + 1, w =>
    sha1Extend n ((w.getD 2 0#32 ^^^ w.getD 7 0#32 ^^^ w.getD 13 0#32 ^^^ w.getD 15 0#32).rotateLeft 1 :: w)

/-- The sixteen message words of a block of 32-bit words (42_sha.md R166, R173). -/
def blockWords32 (m : List Byte) : List Word := (List.range 16).map fun t => be32 m (4 * t)

/-- W[0..79] (42_sha.md R166). -/
def sha1Schedule (m : List Byte) : List Word := (sha1Extend 64 (blockWords32 m).reverse).reverse

/-- One round (42_sha.md R166). -/
def sha1Round (v : Sha1Words) (p : Word × Nat) : Sha1Words :=
  { a := v.a.rotateLeft 5 + sha1F p.2 v.b v.c v.d + v.e + sha1K p.2 + p.1
    b := v.a
    c := v.b.rotateLeft 30
    d := v.c
    e := v.d }

/-- The chaining words after one block (42_sha.md R166). -/
def sha1Block (h : Sha1Words) (m : List Byte) : Sha1Words :=
  let v := (sha1Schedule m).zipIdx.foldl sha1Round h
  { a := h.a + v.a, b := h.b + v.b, c := h.c + v.c, d := h.d + v.d, e := h.e + v.e }

/-- The chaining words written out, each big-endian (42_sha.md R166). -/
def Sha1Words.bytes (h : Sha1Words) : List Byte :=
  serBe h.a.toNat 4 ++ serBe h.b.toNat 4 ++ serBe h.c.toNat 4 ++ serBe h.d.toNat 4 ++ serBe h.e.toNat 4

/-- `SHA1(M)` (42_sha.md R166). -/
def sha1 (m : List Byte) : List Byte := ((blocks 64 (pad 64 8 m)).foldl sha1Block sha1Init).bytes

/-! ### The common shape of SHA-256 and SHA-512 -/

/-- The eight chaining words of width `w` (42_sha.md R173, R183). -/
structure Sha2Words (w : Nat) where
  a : BitVec w
  b : BitVec w
  c : BitVec w
  d : BitVec w
  e : BitVec w
  f : BitVec w
  g : BitVec w
  h : BitVec w
  deriving DecidableEq, Repr

/-- Ch (42_sha.md R170, R180). -/
def sha2Ch {w : Nat} (x y z : BitVec w) : BitVec w := (x &&& y) ^^^ (~~~x &&& z)

/-- Maj (42_sha.md R170, R180). -/
def sha2Maj {w : Nat} (x y z : BitVec w) : BitVec w := (x &&& y) ^^^ (x &&& z) ^^^ (y &&& z)

/-- `n` further words of the schedule, newest first, with the two small sigma functions (42_sha.md R173, R183). -/
def sha2Extend {w : Nat} (ssig0 ssig1 : BitVec w → BitVec w) : Nat → List (BitVec w) → List (BitVec w)
  | 0, l => l
  | n + 1, l =>
    sha2Extend ssig0 ssig1 n ((ssig1 (l.getD 1 0) + l.getD 6 0 + ssig0 (l.getD 14 0) + l.getD 15 0) :: l)

/-- One round on the pair of K[t] and W[t], with the two big sigma functions (42_sha.md R173, R183). -/
def sha2Round {w : Nat} (bsig0 bsig1 : BitVec w → BitVec w) (v : Sha2Words w) (p : BitVec w × BitVec w) :
    Sha2Words w :=
  let t1 := v.h + bsig1 v.e + sha2Ch v.e v.f v.g + p.1 + p.2
  let t2 := bsig0 v.a + sha2Maj v.a v.b v.c
  { a := t1 + t2, b := v.a, c := v.b, d := v.c, e := v.d + t1, f := v.e, g := v.f, h := v.g }

/-- Word by word addition of the chaining words (42_sha.md R173, R183). -/
def Sha2Words.plus {w : Nat} (x y : Sha2Words w) : Sha2Words w :=
  { a := x.a + y.a, b := x.b + y.b, c := x.c + y.c, d := x.d + y.d
    e := x.e + y.e, f := x.f + y.f, g := x.g + y.g, h := x.h + y.h }

/-- The chaining words written out, each big-endian in `n` bytes (42_sha.md R173, R183). -/
def Sha2Words.bytes {w : Nat} (x : Sha2Words w) (n : Nat) : List Byte :=
  serBe x.a.toNat n ++ serBe x.b.toNat n ++ serBe x.c.toNat n ++ serBe x.d.toNat n
    ++ serBe x.e.toNat n ++ serBe x.f.toNat n ++ serBe x.g.toNat n ++ serBe x.h.toNat n

/-! ### SHA-256 -/

/-- BSIG0 on 32-bit words (42_sha.md R170). -/
def bsig0w32 (x : Word) : Word := x.rotateRight 2 ^^^ x.rotateRight 13 ^^^ x.rotateRight 22

/-- BSIG1 on 32-bit words (42_sha.md R170). -/
def bsig1w32 (x : Word) : Word := x.rotateRight 6 ^^^ x.rotateRight 11 ^^^ x.rotateRight 25

/-- SSIG0 on 32-bit words (42_sha.md R170). -/
def ssig0w32 (x : Word) : Word := x.rotateRight 7 ^^^ x.rotateRight 18 ^^^ (x >>> 3)

/-- SSIG1 on 32-bit words (42_sha.md R170). -/
def ssig1w32 (x : Word) : Word := x.rotateRight 17 ^^^ x.rotateRight 19 ^^^ (x >>> 10)

/-- The initial hash value of SHA-256 (42_sha.md R171). -/
def sha256Init : Sha2Words 32 :=
  { a := 0x6a09e667#32, b := 0xbb67ae85#32, c := 0x3c6ef372#32, d := 0xa54ff53a#32
    e := 0x510e527f#32, f := 0x9b05688c#32, g := 0x1f83d9ab#32, h := 0x5be0cd19#32 }

/-- K256 (42_sha.md R172), entries 0 to 15. -/
def k256Part0 : List Word :=
  [
    0x428a2f98#32, 0x71374491#32, 0xb5c0fbcf#32, 0xe9b5dba5#32,
    0x3956c25b#32, 0x59f111f1#32, 0x923f82a4#32, 0xab1c5ed5#32,
    0xd807aa98#32, 0x12835b01#32, 0x243185be#32, 0x550c7dc3#32,
    0x72be5d74#32, 0x80deb1fe#32, 0x9bdc06a7#32, 0xc19bf174#32 ]

/-- K256 (42_sha.md R172), entries 16 to 31. -/
def k256Part1 : List Word :=
  [
    0xe49b69c1#32, 0xefbe4786#32, 0x0fc19dc6#32, 0x240ca1cc#32,
    0x2de92c6f#32, 0x4a7484aa#32, 0x5cb0a9dc#32, 0x76f988da#32,
    0x983e5152#32, 0xa831c66d#32, 0xb00327c8#32, 0xbf597fc7#32,
    0xc6e00bf3#32, 0xd5a79147#32, 0x06ca6351#32, 0x14292967#32 ]

/-- K256 (42_sha.md R172), entries 32 to 47. -/
def k256Part2 : List Word :=
  [
    0x27b70a85#32, 0x2e1b2138#32, 0x4d2c6dfc#32, 0x53380d13#32,
    0x650a7354#32, 0x766a0abb#32, 0x81c2c92e#32, 0x92722c85#32,
    0xa2bfe8a1#32, 0xa81a664b#32, 0xc24b8b70#32, 0xc76c51a3#32,
    0xd192e819#32, 0xd6990624#32, 0xf40e3585#32, 0x106aa070#32 ]

/-- K256 (42_sha.md R172), entries 48 to 63. -/
def k256Part3 : List Word :=
  [
    0x19a4c116#32, 0x1e376c08#32, 0x2748774c#32, 0x34b0bcb5#32,
    0x391c0cb3#32, 0x4ed8aa4a#32, 0x5b9cca4f#32, 0x682e6ff3#32,
    0x748f82ee#32, 0x78a5636f#32, 0x84c87814#32, 0x8cc70208#32,
    0x90befffa#32, 0xa4506ceb#32, 0xbef9a3f7#32, 0xc67178f2#32 ]

/-- K256 (42_sha.md R172). -/
def k256 : List Word :=
  k256Part0 ++ k256Part1 ++ k256Part2 ++ k256Part3

/-- W[0..63] of SHA-256 (42_sha.md R173). -/
def sha256Schedule (m : List Byte) : List Word :=
  (sha2Extend ssig0w32 ssig1w32 48 (blockWords32 m).reverse).reverse

/-- The chaining words after one block (42_sha.md R173). -/
def sha256Block (h : Sha2Words 32) (m : List Byte) : Sha2Words 32 :=
  h.plus ((k256.zip (sha256Schedule m)).foldl (sha2Round bsig0w32 bsig1w32) h)

/-- `SHA256(M)` (42_sha.md R173). -/
def sha256 (m : List Byte) : List Byte := ((blocks 64 (pad 64 8 m)).foldl sha256Block sha256Init).bytes 4

/-! ### SHA-512 -/

/-- BSIG0 on 64-bit words (42_sha.md R180). -/
def bsig0w64 (x : DWord) : DWord := x.rotateRight 28 ^^^ x.rotateRight 34 ^^^ x.rotateRight 39

/-- BSIG1 on 64-bit words (42_sha.md R180). -/
def bsig1w64 (x : DWord) : DWord := x.rotateRight 14 ^^^ x.rotateRight 18 ^^^ x.rotateRight 41

/-- SSIG0 on 64-bit words (42_sha.md R180). -/
def ssig0w64 (x : DWord) : DWord := x.rotateRight 1 ^^^ x.rotateRight 8 ^^^ (x >>> 7)

/-- SSIG1 on 64-bit words (42_sha.md R180). -/
def ssig1w64 (x : DWord) : DWord := x.rotateRight 19 ^^^ x.rotateRight 61 ^^^ (x >>> 6)

/-- The initial hash value of SHA-512 (42_sha.md R181). -/
def sha512Init : Sha2Words 64 :=
  { a := 0x6a09e667f3bcc908#64, b := 0xbb67ae8584caa73b#64, c := 0x3c6ef372fe94f82b#64, d := 0xa54ff53a5f1d36f1#64
    e := 0x510e527fade682d1#64, f := 0x9b05688c2b3e6c1f#64, g := 0x1f83d9abfb41bd6b#64, h := 0x5be0cd19137e2179#64 }

/-- K512 (42_sha.md R182), entries 0 to 15. -/
def k512Part0 : List DWord :=
  [
    0x428a2f98d728ae22#64, 0x7137449123ef65cd#64, 0xb5c0fbcfec4d3b2f#64, 0xe9b5dba58189dbbc#64,
    0x3956c25bf348b538#64, 0x59f111f1b605d019#64, 0x923f82a4af194f9b#64, 0xab1c5ed5da6d8118#64,
    0xd807aa98a3030242#64, 0x12835b0145706fbe#64, 0x243185be4ee4b28c#64, 0x550c7dc3d5ffb4e2#64,
    0x72be5d74f27b896f#64, 0x80deb1fe3b1696b1#64, 0x9bdc06a725c71235#64, 0xc19bf174cf692694#64 ]

/-- K512 (42_sha.md R182), entries 16 to 31. -/
def k512Part1 : List DWord :=
  [
    0xe49b69c19ef14ad2#64, 0xefbe4786384f25e3#64, 0x0fc19dc68b8cd5b5#64, 0x240ca1cc77ac9c65#64,
    0x2de92c6f592b0275#64, 0x4a7484aa6ea6e483#64, 0x5cb0a9dcbd41fbd4#64, 0x76f988da831153b5#64,
    0x983e5152ee66dfab#64, 0xa831c66d2db43210#64, 0xb00327c898fb213f#64, 0xbf597fc7beef0ee4#64,
    0xc6e00bf33da88fc2#64, 0xd5a79147930aa725#64, 0x06ca6351e003826f#64, 0x142929670a0e6e70#64 ]

/-- K512 (42_sha.md R182), entries 32 to 47. -/
def k512Part2 : List DWord :=
  [
    0x27b70a8546d22ffc#64, 0x2e1b21385c26c926#64, 0x4d2c6dfc5ac42aed#64, 0x53380d139d95b3df#64,
    0x650a73548baf63de#64, 0x766a0abb3c77b2a8#64, 0x81c2c92e47edaee6#64, 0x92722c851482353b#64,
    0xa2bfe8a14cf10364#64, 0xa81a664bbc423001#64, 0xc24b8b70d0f89791#64, 0xc76c51a30654be30#64,
    0xd192e819d6ef5218#64, 0xd69906245565a910#64, 0xf40e35855771202a#64, 0x106aa07032bbd1b8#64 ]

/-- K512 (42_sha.md R182), entries 48 to 63. -/
def k512Part3 : List DWord :=
  [
    0x19a4c116b8d2d0c8#64, 0x1e376c085141ab53#64, 0x2748774cdf8eeb99#64, 0x34b0bcb5e19b48a8#64,
    0x391c0cb3c5c95a63#64, 0x4ed8aa4ae3418acb#64, 0x5b9cca4f7763e373#64, 0x682e6ff3d6b2b8a3#64,
    0x748f82ee5defb2fc#64, 0x78a5636f43172f60#64, 0x84c87814a1f0ab72#64, 0x8cc702081a6439ec#64,
    0x90befffa23631e28#64, 0xa4506cebde82bde9#64, 0xbef9a3f7b2c67915#64, 0xc67178f2e372532b#64 ]

/-- K512 (42_sha.md R182), entries 64 to 79. -/
def k512Part4 : List DWord :=
  [
    0xca273eceea26619c#64, 0xd186b8c721c0c207#64, 0xeada7dd6cde0eb1e#64, 0xf57d4f7fee6ed178#64,
    0x06f067aa72176fba#64, 0x0a637dc5a2c898a6#64, 0x113f9804bef90dae#64, 0x1b710b35131c471b#64,
    0x28db77f523047d84#64, 0x32caab7b40c72493#64, 0x3c9ebe0a15c9bebc#64, 0x431d67c49c100d4c#64,
    0x4cc5d4becb3e42b6#64, 0x597f299cfc657e2a#64, 0x5fcb6fab3ad6faec#64, 0x6c44198c4a475817#64 ]

/-- K512 (42_sha.md R182). -/
def k512 : List DWord :=
  k512Part0 ++ k512Part1 ++ k512Part2 ++ k512Part3 ++ k512Part4

/-- The sixteen message words of a block of 64-bit words (42_sha.md R183). -/
def blockWords64 (m : List Byte) : List DWord := (List.range 16).map fun t => be64 m (8 * t)

/-- W[0..79] of SHA-512 (42_sha.md R183). -/
def sha512Schedule (m : List Byte) : List DWord :=
  (sha2Extend ssig0w64 ssig1w64 64 (blockWords64 m).reverse).reverse

/-- The chaining words after one block (42_sha.md R183). -/
def sha512Block (h : Sha2Words 64) (m : List Byte) : Sha2Words 64 :=
  h.plus ((k512.zip (sha512Schedule m)).foldl (sha2Round bsig0w64 bsig1w64) h)

/-- `SHA512(M)` (42_sha.md R183). -/
def sha512 (m : List Byte) : List Byte := ((blocks 128 (pad 128 16 m)).foldl sha512Block sha512Init).bytes 8

/-! ### Selection -/

/-- `H_alg(M)` (42_sha.md R185). -/
def hashOf : Alg → List Byte → List Byte
  | .sha1, m => sha1 m
  | .sha256, m => sha256 m
  | .sha512, m => sha512 m

end Sys2Proof.Machine
end

