-- ==== Sys2Proof/Machine/Hmac.lean ====
section
/-! DEFINITION. The keyed hash (43_hmac.md): the function HMAC and the command HMAC. -/
namespace Sys2Proof.Machine

/-- K0: a key longer than one block is hashed first, then the key is right-padded with zeros to one block
(43_hmac.md R201). -/
def hmacKeyBlock (alg : Alg) (key : List Byte) : List Byte :=
  let k := if blockSize alg < key.length then hashOf alg key else key
  k ++ List.replicate (blockSize alg - k.length) 0x00#8

/-- `HMAC(alg, key, msg)` (43_hmac.md R201). -/
def hmac (alg : Alg) (key msg : List Byte) : List Byte :=
  let k0 := hmacKeyBlock alg key
  let inner := hashOf alg (k0.map (· ^^^ 0x36#8) ++ msg)
  hashOf alg (k0.map (· ^^^ 0x5C#8) ++ inner)

/-- HMAC (43_hmac.md R205): the digest of the resolved counter, exposed in DIGEST; NoSecretSet without a secret. -/
def execHmac (dflt : Bool) (s : State) : Host.Outcome State Fault Refusal :=
  match s.secret with
  | none => .next (s.failWith .noSecretSet)
  | some key =>
    let c := resolveCounter s dflt
    let d := hmac s.cfg.alg key (serCounter c)
    .next { s.setCtr c with digest := overwriteFront s.digest d }.finish

end Sys2Proof.Machine
end

