-- ==== Sys2Proof/Machine/Code.lean ====
section
/-! DEFINITION. Code generation (44_code.md): dynamic truncation, modulus, decimal formatting, and the command CODE. -/
namespace Sys2Proof.Machine

/-- The offset of dynamic truncation: the low nibble of the LAST byte of the digest (44_code.md R220). -/
def truncOffset (d : List Byte) : Nat := (d.getD (d.length - 1) 0#8 &&& 0x0F#8).toNat

/-- `dyn_trunc(d)` (44_code.md R220). -/
def dynTrunc (d : List Byte) : Word := be32 d (truncOffset d) &&& 0x7FFFFFFF#32

/-- `code_value(p, digits) = p mod 10^digits`, exact (44_code.md R221). -/
def codeValue (p digits : Nat) : Nat := p % 10 ^ digits

/-- `fmt_dec(v, digits)`: the ASCII digits of `v`, most significant first, with leading zeros (44_code.md R222). -/
def fmtDec (v digits : Nat) : List Byte :=
  (List.range digits).map fun j => BitVec.ofNat 8 (0x30 + v / 10 ^ (digits - 1 - j) % 10)

/-- `otp(alg, s, digits, c)`: the value and the string of the code for counter `c` (44_code.md R223). -/
def otp (alg : Alg) (key : List Byte) (digits : Nat) (c : DWord) : Nat × List Byte :=
  let p := dynTrunc (hmac alg key (serCounter c))
  let val := codeValue p.toNat digits
  (val, fmtDec val digits)

/-- CODE (44_code.md R225): the one-time code of the resolved counter; NoSecretSet without a secret. -/
def execCode (dflt : Bool) (s : State) : Host.Outcome State Fault Refusal :=
  match s.secret with
  | none => .next (s.failWith .noSecretSet)
  | some key =>
    let c := resolveCounter s dflt
    let r := otp s.cfg.alg key s.cfg.digits.toNat c
    .next { s.setCtr c with codeVal := BitVec.ofNat 32 r.1, code := overwriteFront s.code r.2 }.finish

end Sys2Proof.Machine
end

