-- ==== Sys2Proof/Machine/Key.lean ====
section
/-! DEFINITION. Secret management: the command KEYSET (40_key.md). -/
namespace Sys2Proof.Machine

/-- The three cases KEYSET refuses (40_key.md R121 to R123): an empty secret, one longer than the block holds, and a
generated one shorter than 16 bytes. -/
def keyLengthRefused (gen : Bool) (n : Nat) : Bool :=
  decide (n = 0) || decide (Config.keyMax < n) || (gen && decide (n < Config.keyMinGen))

/-- Scrubbing, at every KEYSET completion (40_key.md R124). -/
def State.scrub (s : State) : State := { s with stage := zeroBytes 128, keylen := 0#8 }

/-- KEYSET (40_key.md R121): the first KEYLEN staged bytes become the secret, whole, or the length is refused and the
secret stays. -/
def execKeyset (gen : Bool) (s : State) : Host.Outcome State Fault Refusal :=
  if keyLengthRefused gen s.keylen.toNat then .next (s.scrub.failWith .invalidSecretLength)
  else .next { s.scrub with secret := some (s.stage.toList.take s.keylen.toNat) }.finish

end Sys2Proof.Machine
end

