-- ==== Sys2Proof/Machine/Verify.lean ====
section
/-! DEFINITION. Verification (45_verify.md): the comparator, the window, and the command VERIFY. -/
namespace Sys2Proof.Machine

/-- `ct_equal(str, n)`: the length difference and every byte difference are ORed into one accumulator; no early exit
(45_verify.md R241). -/
def ctEqual (s : State) (str : List Byte) (n : Nat) : Bool :=
  let acc := (List.range n).foldl (fun acc j => acc ||| (str.getD j 0#8 ^^^ s.cand.toList.getD j 0#8))
    (s.candLen ^^^ BitVec.ofNat 8 n)
  acc == 0#8

/-- The counters of the window: `t + i` for `i` from `-ADJ` to `+ADJ` ascending, computed on integers, those outside
0 to 2^64 - 1 skipped (45_verify.md R244 item 2, R245). -/
def windowCounters (t : DWord) (adj : Nat) : List DWord :=
  (List.range (2 * adj + 1)).filterMap fun (k : Nat) =>
    let c : Int := (t.toNat : Int) + ((k : Int) - (adj : Int))
    if 0 ≤ c ∧ c ≤ (Config.ctrMax : Int) then some (BitVec.ofInt 64 c) else none

/-- Whether the candidate is the code of counter `c` under the key and the configuration (45_verify.md R245). -/
def candidateMatches (s : State) (key : List Byte) (c : DWord) : Bool :=
  ctEqual s (otp s.cfg.alg key s.cfg.digits.toNat c).2 s.cfg.digits.toNat

/-- The verdict of VERIFY (45_verify.md R243, R244, R245): one comparison in HOTP mode, the ORed window in TOTP mode. -/
def verdict (s : State) (key : List Byte) (dflt : Bool) : Bool :=
  match s.cfg.mode with
  | .hotp => candidateMatches s key (resolveData s dflt)
  | .totp =>
    (windowCounters (timeslice s (resolveData s dflt)) s.cfg.adj.toNat).foldl
      (fun m c => m || candidateMatches s key c) false

/-- VERIFY (45_verify.md R245): MATCH only; NoSecretSet without a secret. -/
def execVerify (dflt : Bool) (s : State) : Host.Outcome State Fault Refusal :=
  match s.secret with
  | none => .next (s.failWith .noSecretSet)
  | some key => .next { s with matched := verdict s key dflt }.finish

end Sys2Proof.Machine
end

