-- ==== Sys2Proof/Machine/Dispatch.lean ====
section
/-! DEFINITION. One arm per command: the effect of its completion step (30_encoding.md R97). -/
namespace Sys2Proof.Machine

def exec (i : Instr) (s : State) : Host.Outcome State Fault Refusal :=
  match i with
  | .keyset gen => Sys2Proof.Machine.execKeyset gen s
  | .slice dflt => Sys2Proof.Machine.execSlice dflt s
  | .hmac dflt => Sys2Proof.Machine.execHmac dflt s
  | .code dflt => Sys2Proof.Machine.execCode dflt s
  | .verify dflt => Sys2Proof.Machine.execVerify dflt s

end Sys2Proof.Machine
end

