-- ==== Sys2Proof/Machine/Engine.lean ====
section
/-! DEFINITION. The steps of the three agents (00_scope.md R6): the engine's completion (30_encoding.md R97), the host's
accesses (20_memory.md R61 to R66, R71), the platform's inputs (10_state.md R39, 70_reset_and_hazards.md R300). -/
namespace Sys2Proof.Machine

/-- Completion of the latched word (30_encoding.md R97): the command it decodes to, or IllegalCommand. -/
def completion (s : State) : Host.Outcome State Fault Refusal :=
  match decode s.cmdLatch with
  | .ok i => exec i s
  | .error _ => .next (s.failWith .illegalCommand)

/-- The engine's turn: it completes while BUSY = 1 and has no step while BUSY = 0 (00_scope.md R6) or while the block
is held in reset (70_reset_and_hazards.md R300). -/
def engineTurn (s : State) : Host.Outcome State Fault Refusal :=
  if s.busy && !s.rst then completion s else .next s

/-- An access of the host: it must be one aligned word (20_memory.md R71) of the window (R60) while the block is not in
reset (70_reset_and_hazards.md R300); then it does `k` of the register it names. -/
def hostAccess (s : State) (off size : Nat) (k : Reg → State) : Host.Outcome State Fault Refusal :=
  if size ≠ 4 ∨ off % 4 ≠ 0 then .refused (.notOneAlignedWord off size)
  else if Config.windowBytes ≤ off then .fault (.outsideWindow off)
  else if s.rst then .fault .accessDuringReset
  else .next (k (regAt off))

/-- The platform drives `rst` (70_reset_and_hazards.md R300): while it is asserted and at its release all state of the
block holds its reset value; a low level on a pin already low changes nothing. -/
def driveRst (s : State) (asserted : Bool) : State :=
  if asserted || s.rst then { s.resetBlock with rst := asserted } else s

/-- One event, taken from the agenda (20_memory.md R75: each is indivisible). A read changes only the host's `rdata`
(R62). -/
def runEvent (e : Event) (s : State) : Host.Outcome State Fault Refusal :=
  match e with
  | .read off size => hostAccess s off size fun r => { s with rdata := regRead s r }
  | .write off size v => hostAccess s off size fun r => regWrite s v r
  | .engine => engineTurn s
  | .timeIn t => .next { s with timeIn := t }
  | .rst asserted => .next (driveRst s asserted)

/-- The block with the command word `w` just accepted and the engine to move next (notes/assumptions/5.md). -/
def placeCommand (s : State) (w : Word) : State :=
  { State.accept { s with rst := false } w with
    agenda := if s.agenda = [] then [] else .engine :: s.agenda }

end Sys2Proof.Machine
end

