-- ==== Sys2Proof/Machine/Step.lean ====
section
/-! DEFINITION. One step of the machine: the next event of the agenda, or, when none is left, the engine's turn. -/
namespace Sys2Proof.Machine

/-- One step. With an empty agenda the engine moves: an accepted command is always completed
(70_reset_and_hazards.md R320 (a)), and an idle block does nothing (00_scope.md R6). -/
def step (s : State) : Host.Outcome State Fault Refusal :=
  match s.agenda with
  | [] => engineTurn s
  | e :: rest => runEvent e { s with agenda := rest }

/-- The state with the command word of `nbits` bits and number `w` placed where the machine takes its next command:
the latch, by acceptance, with the engine to move next. -/
def State.withFetchWord (s : State) (nbits w : Nat) : State := placeCommand s (tableWord nbits w)

end Sys2Proof.Machine
end

