-- ==== Sys2Proof/Safety.lean ====
section
/-! DEFINITION. What claims are stated in terms of: the invariant of reachable states (10_state.md R45), runs, whose
turn it is, what the host reads, and what the host can tell apart (10_state.md R24, R25). -/
namespace Sys2Proof

/-- A command whose completion hashes the secret. -/
def Instr.readsSecret : Instr → Bool
  | .keyset _ => false
  | .slice _ => false
  | .hmac _ => true
  | .code _ => true
  | .verify _ => true

end Sys2Proof

namespace Sys2Proof.Machine

/-- The state of the block, every register of 10_state.md R40 at the value that table gives it. -/
structure State.AtResetValues (s : State) : Prop where
  secret : s.secret = none
  stage : ∀ i : Fin 128, s.stage[i] = 0x00#8
  keylen : s.keylen = 0#8
  latches : s.cmdLatch = 0#32 ∧ s.nowLatch = 0#64
  status : s.busy = false ∧ s.done = false ∧ s.err = false ∧ s.matched = false ∧ s.cfgRej = false ∧ s.busyErr = false
  errcode : s.errcode = 0#8
  ie : s.ie = 0#2
  cfg : s.cfg = { mode := .hotp, alg := .sha1, digits := 6#4, adj := 1#8 }
  period : s.period = 30#32
  data : s.dataLo = 0#32 ∧ s.dataHi = 0#32
  candLen : s.candLen = 0#8
  cand : ∀ i : Fin 12, s.cand[i] = 0x00#8
  ctr : s.ctrLo = 0#32 ∧ s.ctrHi = 0#32
  codeVal : s.codeVal = 0#32
  code : ∀ i : Fin 12, s.code[i] = 0x00#8
  digest : ∀ i : Fin 64, s.digest[i] = 0x00#8

/-- The invariant of reachable states: the six items of 10_state.md R45 that concern stored state, and three that the
rules add (`codeVal` is R36, `errHasCode` follows from R96 and R260, `heldInReset` is 70_reset_and_hazards.md R300). -/
structure State.Inv (s : State) : Prop where
  /-- R45 item 1, CFG: DIGITS is 1 to 10 (MODE and ALG are legal by their types). -/
  digits : 1 ≤ s.cfg.digits.toNat ∧ s.cfg.digits.toNat ≤ 10
  /-- R45 item 1, PERIOD. -/
  period : 1 ≤ s.period.toNat
  /-- R45 item 2. -/
  secret : ∀ key, s.secret = some key → 1 ≤ key.length ∧ key.length ≤ 128
  /-- R45 item 3. -/
  busy : s.busy = true → s.done = false ∧ s.err = false ∧ s.matched = false ∧ s.errcode = 0#8 ∧ s.ctrLo = 0#32 ∧
    s.ctrHi = 0#32 ∧ s.codeVal = 0#32 ∧ (∀ i : Fin 12, s.code[i] = 0x00#8) ∧ (∀ i : Fin 64, s.digest[i] = 0x00#8)
  /-- R45 item 4. -/
  errcode : s.errcode = 0#8 ∨ s.errcode = 1#8 ∨ s.errcode = 3#8 ∨ s.errcode = 5#8
  /-- R45 item 5: some number of digit characters, then zeros. -/
  code : ∃ n : Nat, n ≤ 10 ∧ ∀ j : Fin 12,
    (j.val < n → 0x30 ≤ s.code[j].toNat ∧ s.code[j].toNat ≤ 0x39) ∧ (n ≤ j.val → s.code[j] = 0x00#8)
  /-- R36: CODE_VAL is below 2^31. -/
  codeVal : s.codeVal.toNat < 2 ^ 31
  /-- ERR is set only together with an error code (R260), and acceptance clears both (R96). -/
  errHasCode : s.err = true → s.errcode ≠ 0#8
  /-- R300: while `rst` is asserted all state holds its reset value. -/
  heldInReset : s.rst = true → s.AtResetValues

/-- `k` steps of the machine behind the host's interface, stopping at the first stop. -/
def runSteps (k : Nat) (s : State) : Host.Outcome State Fault Refusal := Host.Core.run Sys2Proof.core k s

/-- It is the engine's turn and `rest` comes after it: nothing else is to come, or the next event says so. -/
def engineMoves (s : State) (rest : List Event) : Prop :=
  (s.agenda = [] ∧ rest = []) ∨ s.agenda = .engine :: rest

/-- What a host read of the word at `off` returns in `s`, by the step that takes it; `none` if that step stops. -/
def hostReads (s : State) (off : Nat) : Option Word :=
  match step { s with agenda := [.read off 4] } with
  | .next t => some t.rdata
  | .fault _ => none
  | .refused _ => none

/-- An access the port can express and the window holds (20_memory.md R60, R71); true of every other event. -/
def Event.legal : Event → Bool
  | .read off size => size == 4 && off % 4 == 0 && decide (off < 512)
  | .write off size _ => size == 4 && off % 4 == 0 && decide (off < 512)
  | .engine => true
  | .timeIn _ => true
  | .rst _ => true

/-- A host write. -/
def Event.isWrite : Event → Bool
  | .read _ _ => false
  | .write _ _ _ => true
  | .engine => false
  | .timeIn _ => false
  | .rst _ => false

/-- An event that neither gives the engine its turn nor drives `rst`: a host access or a change of `time_in`. -/
def Event.duringBusy : Event → Bool
  | .read _ _ => true
  | .write _ _ _ => true
  | .engine => false
  | .timeIn _ => true
  | .rst _ => false

/-- Two states that differ at most in the bytes of the secret and of the staging buffer, with a secret set in both or
in neither (10_state.md R24, R25). -/
def SameToTheHost (s s' : State) : Prop :=
  s' = { s with secret := s'.secret, stage := s'.stage } ∧ s'.secret.isSome = s.secret.isSome

/-- Two outcomes of one kind: next states that are the same to the host, or the same stop. -/
def OutcomesAgree : Host.Outcome State Fault Refusal → Host.Outcome State Fault Refusal → Prop
  | .next t, .next t' => SameToTheHost t t'
  | .fault r, .fault r' => r = r'
  | .refused r, .refused r' => r = r'
  | _, _ => False

end Sys2Proof.Machine
end

