-- ==== Sys2Proof/Certificates/Slice0/Obligations.lean ====
section
/-! DEFINITION. The statements for the provers. Each docstring names the rule of spec/ it formalises. -/
open Sys2Proof Sys2Proof.Machine

/-! ### What the statements are said with -/

/-- The ten legal command words of 30_encoding.md R93. -/
def Sys2Proof.tenWords : List Word :=
  [0x00000001#32, 0x00000101#32, 0x00000002#32, 0x00000102#32, 0x00000003#32, 0x00000103#32, 0x00000004#32,
    0x00000104#32, 0x00000005#32, 0x00000105#32]

/-- An aligned offset of the window (20_memory.md R60, R71). -/
def Sys2Proof.inWindow (off : Nat) : Prop := off % 4 = 0 ∧ off < 512

/-- The reserved offsets, as 20_memory.md R65 lists them. -/
def Sys2Proof.reservedOffset (off : Nat) : Prop :=
  off = 0x01C ∨ off = 0x02C ∨ off = 0x03C ∨ off = 0x04C ∨ off = 0x05C ∨ (0x064 ≤ off ∧ off ≤ 0x07C) ∨
    (0x0C0 ≤ off ∧ off ≤ 0x0FC) ∨ (0x180 ≤ off ∧ off ≤ 0x1FC)

/-- The read-only registers, as 20_memory.md R63 lists them: ID, ERRCODE, CTR_LO, CTR_HI, CODE_VAL, CODE0 to CODE2,
DIGEST0 to DIGEST15. -/
def Sys2Proof.readOnlyOffset (off : Nat) : Prop :=
  off = 0x000 ∨ off = 0x00C ∨ off = 0x040 ∨ off = 0x044 ∨ off = 0x048 ∨ (0x050 ≤ off ∧ off ≤ 0x058) ∨
    (0x080 ≤ off ∧ off ≤ 0x0BC)

/-- A legal CFG value, by the numbers of 10_state.md R30: ALG (bits 2:1) is not 3, DIGITS (bits 7:4) is 1 to 10, bit 3
and bits 31:16 are 0. -/
def Sys2Proof.legalCfgValue (v : Word) : Prop :=
  v.toNat / 2 % 4 ≠ 3 ∧ 1 ≤ v.toNat / 16 % 16 ∧ v.toNat / 16 % 16 ≤ 10 ∧ v.toNat / 8 % 2 = 0 ∧ v.toNat / 65536 = 0

/-- `x[DATA]` as a number (10_state.md R32). -/
def Sys2Proof.dataNumber (s : State) : Nat := s.dataHi.toNat * 2 ^ 32 + s.dataLo.toNat

/-- The number HMAC and CODE hash (41_counter.md R142, R143). -/
def Sys2Proof.counterNumber (s : State) (dflt : Bool) : Nat :=
  match s.cfg.mode, dflt with
  | .hotp, false => dataNumber s
  | .hotp, true => 0
  | .totp, false => dataNumber s / s.period.toNat
  | .totp, true => s.nowLatch.toNat / s.period.toNat

/-- The candidate in CAND and CAND_LEN is the string `str` of `n` bytes (45_verify.md R241). -/
def Sys2Proof.candidateIs (s : State) (str : List Byte) (n : Nat) : Prop :=
  s.candLen.toNat = n ∧ ∀ j : Fin 12, j.val < n → str[j.val]? = some s.cand[j]

/-- The code string of counter `c` under the key and the configuration of `s` (44_code.md R223). -/
def Sys2Proof.codeString (s : State) (key : List Byte) (c : DWord) : List Byte :=
  (otp s.cfg.alg key s.cfg.digits.toNat c).2

/-- KEYSET refuses this length (40_key.md R122, R123). -/
def Sys2Proof.badKeyLength (gen : Bool) (n : Nat) : Prop := n = 0 ∨ 128 < n ∨ (gen = true ∧ n < 16)

/-! ### Command words -/

/-- 30_encoding.md R91 to R93: the word of a command decodes to it, the flag included. -/
def Obligations.EncodedCommandDecodesToItself : Prop :=
  ∀ i : Instr, i.wellFormed = true → decode (encode i) = .ok i

/-- 30_encoding.md R93 and R95: a word that decodes is the word of what it decodes to, the words that decode are the ten
of the rule, and they are the well-formed ones. -/
def Obligations.ExactlyTenWordsAreCommands : Prop :=
  (∀ (w : Word) (i : Instr), decode w = .ok i → w = encode i) ∧
    (∀ w : Word, (∃ i, decode w = .ok i) ↔ w ∈ tenWords) ∧
    (∀ w : Word, wordWellFormed w = true ↔ ∃ i, decode w = .ok i)

/-- 30_encoding.md R91 to R93, words written out bit by bit: one command of each opcode, and two of them with the flag. -/
def Obligations.SampleWordsDecode : Prop :=
  decode 0b00000000000000000000000100000001#32 = .ok (.keyset true) ∧
    decode 0b00000000000000000000000000000010#32 = .ok (.slice false) ∧
    decode 0b00000000000000000000000000000011#32 = .ok (.hmac false) ∧
    decode 0b00000000000000000000000000000100#32 = .ok (.code false) ∧
    decode 0b00000000000000000000000100000101#32 = .ok (.verify true)

/-! ### Steps -/

/-- 30_encoding.md R97, 00_scope.md R6: at the engine's turn, while BUSY = 1 and the block is not in reset, the step is
the meaning of the command the latch holds, at the state without the event that gave the turn. -/
def Obligations.StepRunsTheLatchedCommand : Prop :=
  ∀ (s : State) (rest : List Event) (i : Instr), engineMoves s rest → s.rst = false → s.busy = true →
    decode s.cmdLatch = .ok i → step s = exec i { s with agenda := rest }

/-- 30_encoding.md R95: every word but the ten of R93 is accepted like any command when written to CMD while idle, and
its completion fails with IllegalCommand, ERRCODE 5, and no other effect. -/
def Obligations.IllegalWordFailsWithCodeFive : Prop :=
  (∀ (s : State) (rest : List Event), engineMoves s rest → s.rst = false → s.busy = true → s.cmdLatch ∉ tenWords →
    step s = .next { s with agenda := rest, busy := false, done := true, err := true, errcode := 5#8 }) ∧
  (∀ (s : State) (rest : List Event) (w : Word), s.agenda = .write 0x004 4 w :: .engine :: rest → s.rst = false →
    s.busy = false → w ∉ tenWords →
    step s = .next (State.accept { s with agenda := .engine :: rest } w) ∧
    runSteps 2 s = .next { State.accept { s with agenda := rest } w with
      busy := false, done := true, err := true, errcode := 5#8 })

/-- 30_encoding.md R96: acceptance, every field it writes; all others stay. -/
def Obligations.AcceptanceLatchesAndClears : Prop :=
  ∀ (s : State) (rest : List Event) (w : Word), s.agenda = .write 0x004 4 w :: rest → s.rst = false →
    s.busy = false →
    step s = .next { s with
      agenda := rest, cmdLatch := w, nowLatch := s.timeIn, busy := true, done := false, err := false,
      matched := false, errcode := 0#8, ctrLo := 0#32, ctrHi := 0#32, codeVal := 0#32,
      code := Vector.replicate 12 0x00#8, digest := Vector.replicate 64 0x00#8 }

/-- 30_encoding.md R96 and R97: a command's word written to CMD, then the engine's turn, run the meaning of the command
at the state acceptance left. -/
def Obligations.CommandWriteThenEngineRunsIt : Prop :=
  ∀ (s : State) (rest : List Event) (i : Instr), s.agenda = .write 0x004 4 (encode i) :: .engine :: rest →
    s.rst = false → s.busy = false →
    runSteps 2 s = exec i (State.accept { s with agenda := rest } (encode i))

/-- 20_memory.md R66: a write while BUSY = 1, to any offset of the window, changes nothing but BUSYERR. -/
def Obligations.WriteWhileBusyOnlySetsBusyErr : Prop :=
  ∀ (s : State) (rest : List Event) (off : Nat) (v : Word), s.agenda = .write off 4 v :: rest → inWindow off →
    s.rst = false → s.busy = true → step s = .next { s with agenda := rest, busyErr := true }

/-- 20_memory.md R62: a read changes no state but the word the port returned, whatever BUSY is, and returns 0 for the
write-only registers CMD and KEYW0 to KEYW31. -/
def Obligations.ReadHasNoSideEffect : Prop :=
  ∀ (s : State) (rest : List Event) (off : Nat), s.agenda = .read off 4 :: rest → inWindow off → s.rst = false →
    ∃ v : Word, step s = .next { s with agenda := rest, rdata := v } ∧ hostReads s off = some v ∧
      (off = 0x004 ∨ (0x100 ≤ off ∧ off ≤ 0x17C) → v = 0#32)

/-- 10_state.md R20, R21, R26, R28 to R38 and 20_memory.md R70: what a read of each readable register but STATUS
returns; byte strings have byte 0 in bits 31:24 of word 0. -/
def Obligations.ReadValueOfEachRegister : Prop :=
  ∀ s : State, s.rst = false →
    hostReads s 0x000 = some 0x4F545001#32 ∧
    (∃ v, hostReads s 0x00C = some v ∧ v.toNat = s.errcode.toNat) ∧
    (∃ v, hostReads s 0x010 = some v ∧ v.toNat = s.ie.toNat) ∧
    (∃ v, hostReads s 0x014 = some v ∧ v.getLsbD 0 = decide (s.cfg.mode = .totp) ∧
      (v.extractLsb' 1 2 = match s.cfg.alg with | .sha1 => 0#2 | .sha256 => 1#2 | .sha512 => 2#2) ∧
      v.getLsbD 3 = false ∧ v.extractLsb' 4 4 = s.cfg.digits ∧ v.extractLsb' 8 8 = s.cfg.adj ∧
      v.extractLsb' 16 16 = 0#16) ∧
    hostReads s 0x018 = some s.period ∧
    hostReads s 0x020 = some s.dataLo ∧
    hostReads s 0x024 = some s.dataHi ∧
    (∃ v, hostReads s 0x028 = some v ∧ v.toNat = s.candLen.toNat) ∧
    (∀ k : Nat, ∀ h : k < 3, hostReads s (0x030 + 4 * k) =
      some (s.cand[4 * k] ++ s.cand[4 * k + 1] ++ s.cand[4 * k + 2] ++ s.cand[4 * k + 3])) ∧
    hostReads s 0x040 = some s.ctrLo ∧
    hostReads s 0x044 = some s.ctrHi ∧
    hostReads s 0x048 = some s.codeVal ∧
    (∀ k : Nat, ∀ h : k < 3, hostReads s (0x050 + 4 * k) =
      some (s.code[4 * k] ++ s.code[4 * k + 1] ++ s.code[4 * k + 2] ++ s.code[4 * k + 3])) ∧
    (∃ v, hostReads s 0x060 = some v ∧ v.toNat = s.keylen.toNat) ∧
    (∀ k : Nat, ∀ h : k < 16, hostReads s (0x080 + 4 * k) =
      some (s.digest[4 * k] ++ s.digest[4 * k + 1] ++ s.digest[4 * k + 2] ++ s.digest[4 * k + 3]))

/-- 10_state.md R23: the bits of STATUS; KEYVALID is 1 exactly when a secret is stored. -/
def Obligations.StatusBitsReadTheFlags : Prop :=
  ∀ s : State, s.rst = false → ∃ v, hostReads s 0x008 = some v ∧
    v.getLsbD 0 = s.busy ∧ v.getLsbD 1 = s.done ∧ v.getLsbD 2 = s.err ∧ v.getLsbD 3 = s.matched ∧
    (v.getLsbD 4 = true ↔ s.secret ≠ none) ∧ v.getLsbD 5 = s.cfgRej ∧ v.getLsbD 6 = s.busyErr ∧
    ∀ j : Nat, 7 ≤ j → v.getLsbD j = false

/-- 20_memory.md R63, 10_state.md R32, R34: a write to DATA_LO, DATA_HI or CAND0 to CAND2 reads back, every other
offset reads as before, and nothing but DATA and CAND changed. -/
def Obligations.OperandWritesReadBack : Prop :=
  ∀ (s : State) (rest : List Event) (off : Nat) (v : Word), s.agenda = .write off 4 v :: rest → s.rst = false →
    s.busy = false → (off = 0x020 ∨ off = 0x024 ∨ off = 0x030 ∨ off = 0x034 ∨ off = 0x038) →
    ∃ t : State, step s = .next t ∧ hostReads t off = some v ∧
      (∀ off', inWindow off' → off' ≠ off → hostReads t off' = hostReads s off') ∧
      t = { s with agenda := rest, dataLo := t.dataLo, dataHi := t.dataHi, cand := t.cand }

/-- 20_memory.md R63, 10_state.md R26, R29, R33: IE keeps bits 1:0 of a written value, CAND_LEN and KEYLEN bits 7:0;
each changes only itself. -/
def Obligations.NarrowRegisterWritesDropHighBits : Prop :=
  ∀ (s : State) (rest : List Event) (v : Word), s.rst = false → s.busy = false →
    (s.agenda = .write 0x010 4 v :: rest →
      ∃ x : BitVec 2, x.toNat = v.toNat % 4 ∧ step s = .next { s with agenda := rest, ie := x }) ∧
    (s.agenda = .write 0x028 4 v :: rest →
      ∃ x : BitVec 8, x.toNat = v.toNat % 256 ∧ step s = .next { s with agenda := rest, candLen := x }) ∧
    (s.agenda = .write 0x060 4 v :: rest →
      ∃ x : BitVec 8, x.toNat = v.toNat % 256 ∧ step s = .next { s with agenda := rest, keylen := x })

/-- 10_state.md R25: a write to KEYWk fills the four staging bytes 4k to 4k + 3, most significant first, and nothing
else. -/
def Obligations.KeyWordWriteFillsFourStagingBytes : Prop :=
  ∀ (s : State) (rest : List Event) (k : Nat) (v : Word), k < 32 →
    s.agenda = .write (0x100 + 4 * k) 4 v :: rest → s.rst = false → s.busy = false →
    ∃ st : Vector Byte 128, step s = .next { s with agenda := rest, stage := st } ∧
      ∀ i : Fin 128, st[i] = if i.val / 4 = k then v.extractLsb' (24 - 8 * (i.val % 4)) 8 else s.stage[i]

/-- 10_state.md R30: a legal value replaces the four fields and reads back; an illegal one changes no field and sets
CFGREJ. -/
def Obligations.CfgWriteReplacesOrRefuses : Prop :=
  ∀ (s : State) (rest : List Event) (v : Word), s.agenda = .write 0x014 4 v :: rest → s.rst = false →
    s.busy = false →
    (legalCfgValue v → ∃ c : Cfg, step s = .next { s with agenda := rest, cfg := c } ∧
      (c.mode = .totp ↔ v.toNat % 2 = 1) ∧ (c.alg = .sha1 ↔ v.toNat / 2 % 4 = 0) ∧
      (c.alg = .sha256 ↔ v.toNat / 2 % 4 = 1) ∧ (c.alg = .sha512 ↔ v.toNat / 2 % 4 = 2) ∧
      c.digits.toNat = v.toNat / 16 % 16 ∧ c.adj.toNat = v.toNat / 256 % 256 ∧
      hostReads { s with cfg := c } 0x014 = some v) ∧
    (¬ legalCfgValue v → step s = .next { s with agenda := rest, cfgRej := true })

/-- 10_state.md R31: a nonzero PERIOD is stored, a zero one is refused with CFGREJ. -/
def Obligations.PeriodWriteStoresOrRefuses : Prop :=
  ∀ (s : State) (rest : List Event) (v : Word), s.agenda = .write 0x018 4 v :: rest → s.rst = false →
    s.busy = false →
    (v ≠ 0#32 → step s = .next { s with agenda := rest, period := v }) ∧
    (v = 0#32 → step s = .next { s with agenda := rest, cfgRej := true })

/-- 10_state.md R23: a write to STATUS clears DONE, ERR, CFGREJ and BUSYERR where bits 1, 2, 5 and 6 are 1, and does
nothing else. -/
def Obligations.StatusWriteOneClears : Prop :=
  ∀ (s : State) (rest : List Event) (v : Word), s.agenda = .write 0x008 4 v :: rest → s.rst = false →
    s.busy = false →
    step s = .next { s with
      agenda := rest
      done := if v.getLsbD 1 then false else s.done
      err := if v.getLsbD 2 then false else s.err
      cfgRej := if v.getLsbD 5 then false else s.cfgRej
      busyErr := if v.getLsbD 6 then false else s.busyErr }

/-- 20_memory.md R64: while BUSY = 0 a write to a read-only register changes no state and sets no flag. -/
def Obligations.ReadOnlyWritesAreIgnored : Prop :=
  ∀ (s : State) (rest : List Event) (off : Nat) (v : Word), s.agenda = .write off 4 v :: rest → off % 4 = 0 →
    readOnlyOffset off → s.rst = false → s.busy = false → step s = .next { s with agenda := rest }

/-- 20_memory.md R65: a reserved offset reads 0; a write to it is ignored while BUSY = 0 and sets BUSYERR while
BUSY = 1. -/
def Obligations.ReservedOffsetsReadZeroAndIgnoreWrites : Prop :=
  ∀ (s : State) (rest : List Event) (off : Nat) (v : Word), off % 4 = 0 → reservedOffset off → s.rst = false →
    hostReads s off = some 0#32 ∧
    (s.agenda = .write off 4 v :: rest → s.busy = false → step s = .next { s with agenda := rest }) ∧
    (s.agenda = .write off 4 v :: rest → s.busy = true → step s = .next { s with agenda := rest, busyErr := true })

/-- 20_memory.md R71, R60, 70_reset_and_hazards.md R300: the accesses that stop. One that is not an aligned 32-bit word
is refused; an aligned word outside the window is a fault; so is any access of the window while `rst` is asserted. -/
def Obligations.AccessesThatStop : Prop :=
  ∀ (s : State) (rest : List Event) (off size : Nat) (v : Word),
    (s.agenda = .read off size :: rest ∨ s.agenda = .write off size v :: rest) →
    ((size ≠ 4 ∨ off % 4 ≠ 0) → step s = .refused (.notOneAlignedWord off size)) ∧
    (size = 4 → off % 4 = 0 → 512 ≤ off → step s = .fault (.outsideWindow off)) ∧
    (size = 4 → inWindow off → s.rst = true → step s = .fault .accessDuringReset)

/-- 00_scope.md R6, 10_state.md R39: the engine has no step while BUSY = 0, and a change of `time_in` changes nothing
else. -/
def Obligations.IdleEngineAndTimeInput : Prop :=
  (∀ (s : State) (rest : List Event), engineMoves s rest → s.busy = false →
      step s = .next { s with agenda := rest }) ∧
    (∀ (s : State) (rest : List Event) (t : DWord), s.agenda = .timeIn t :: rest →
      step s = .next { s with agenda := rest, timeIn := t })

/-- 70_reset_and_hazards.md R300, 10_state.md R40: asserting `rst`, or releasing it, leaves every piece of state of the
block at its reset value, whatever was in progress; the reset state has them too. -/
def Obligations.ResetReturnsEveryRegister : Prop :=
  State.reset.AtResetValues ∧
    ∀ (s : State) (rest : List Event) (asserted : Bool), s.agenda = .rst asserted :: rest →
      (asserted = true ∨ s.rst = true) →
      ∃ t : State, step s = .next t ∧ t.AtResetValues ∧ t.rst = asserted ∧ t.agenda = rest ∧ t.timeIn = s.timeIn

/-! ### The commands -/

/-- 30_encoding.md R97, 60_exceptions.md R270, 70_reset_and_hazards.md R320: at the engine's turn every command in
progress, legal or not, completes: BUSY = 0, DONE = 1, and `irq` follows the enables. -/
def Obligations.EveryCompletionEndsIdleAndDone : Prop :=
  ∀ (s : State) (rest : List Event), engineMoves s rest → s.rst = false → s.busy = true →
    ∃ t : State, step s = .next t ∧ t.busy = false ∧ t.done = true ∧ t.agenda = rest ∧
      t.irq = (s.ie.getLsbD 0 || (s.ie.getLsbD 1 && t.err))

/-- 40_key.md R121: a legal length; the secret becomes the first KEYLEN staged bytes, the buffer and KEYLEN are
scrubbed, nothing else changes. -/
def Obligations.KeysetStoresTheStagedBytes : Prop :=
  ∀ (s : State) (gen : Bool), ¬ badKeyLength gen s.keylen.toNat →
    ∃ key : List Byte,
      exec (.keyset gen) s = .next { s with
        secret := some key, stage := Vector.replicate 128 0x00#8, keylen := 0#8, busy := false, done := true } ∧
      key.length = s.keylen.toNat ∧ ∀ i : Fin 128, i.val < s.keylen.toNat → key[i.val]? = some s.stage[i]

/-- 40_key.md R121 to R124, 60_exceptions.md R260: the three refused lengths; the secret stays, the scrubbing
happens. -/
def Obligations.KeysetRefusesBadLengths : Prop :=
  ∀ (s : State) (gen : Bool), badKeyLength gen s.keylen.toNat →
    exec (.keyset gen) s = .next { s with
      stage := Vector.replicate 128 0x00#8, keylen := 0#8, busy := false, done := true, err := true, errcode := 3#8 }

/-- 40_key.md R121, R124, 70_reset_and_hazards.md R312: a second KEYSET without a fresh load fails and keeps the secret
of the first, whichever flags the two carry and whatever word is accepted in between. -/
def Obligations.SecondKeysetWithoutReloadFails : Prop :=
  ∀ (s : State) (gen gen' : Bool) (w : Word), ∃ t u : State, exec (.keyset gen) s = .next t ∧
    exec (.keyset gen') (t.accept w) = .next u ∧ u.err = true ∧ u.errcode = 3#8 ∧ u.secret = t.secret

/-- 41_counter.md R141, R144: SLICE writes the floor quotient of the timestamp by PERIOD, in either mode, with or without
a secret, and changes only CTR, BUSY and DONE. -/
def Obligations.SliceWritesTheFloorQuotient : Prop :=
  ∀ (s : State) (dflt : Bool), 1 ≤ s.period.toNat →
    ∃ (t : State) (q ts : Nat), exec (.slice dflt) s = .next t ∧
      q = t.ctrHi.toNat * 2 ^ 32 + t.ctrLo.toNat ∧ ts = (if dflt then s.nowLatch.toNat else dataNumber s) ∧
      q * s.period.toNat ≤ ts ∧ ts < (q + 1) * s.period.toNat ∧
      t = { s with ctrHi := t.ctrHi, ctrLo := t.ctrLo, busy := false, done := true }

/-- 41_counter.md R141, R146: the floor quotient; two timestamps have one time slice exactly when they lie in one period
interval; the slice advances at the boundary; PERIOD = 1 gives the timestamp, and 0 gives 0. -/
def Obligations.TimesliceIsTheFloorQuotient : Prop :=
  ∀ s : State, 1 ≤ s.period.toNat →
    (∀ ts : DWord, (timeslice s ts).toNat * s.period.toNat ≤ ts.toNat ∧
      ts.toNat < ((timeslice s ts).toNat + 1) * s.period.toNat) ∧
    (∀ ts ts' : DWord, timeslice s ts = timeslice s ts' ↔ ∃ k : Nat,
      (k * s.period.toNat ≤ ts.toNat ∧ ts.toNat < (k + 1) * s.period.toNat) ∧
      (k * s.period.toNat ≤ ts'.toNat ∧ ts'.toNat < (k + 1) * s.period.toNat)) ∧
    (∀ k : Nat, 1 ≤ k → k * s.period.toNat < 2 ^ 64 →
      (timeslice s (BitVec.ofNat 64 (k * s.period.toNat - 1))).toNat = k - 1 ∧
      (timeslice s (BitVec.ofNat 64 (k * s.period.toNat))).toNat = k) ∧
    (s.period.toNat = 1 → ∀ ts : DWord, timeslice s ts = ts) ∧ timeslice s 0#64 = 0#64

/-- 43_hmac.md R205, 41_counter.md R142, R143: HMAC writes the hashed counter and the digest of its eight bytes, and
changes only CTR, DIGEST, BUSY and DONE. -/
def Obligations.HmacExposesTheDigest : Prop :=
  ∀ (s : State) (dflt : Bool) (key : List Byte), s.secret = some key →
    ∃ (t : State) (c : DWord) (d : List Byte), exec (.hmac dflt) s = .next t ∧ c.toNat = counterNumber s dflt ∧
      d = hmac s.cfg.alg key (serCounter c) ∧ d.length = digestSize s.cfg.alg ∧ t.ctrHi ++ t.ctrLo = c ∧
      (∀ i : Fin 64, (i.val < d.length → d[i.val]? = some t.digest[i]) ∧
        (d.length ≤ i.val → t.digest[i] = s.digest[i])) ∧
      t = { s with ctrHi := t.ctrHi, ctrLo := t.ctrLo, digest := t.digest, busy := false, done := true }

/-- 44_code.md R220 to R225: CODE writes the counter, the truncated value modulo `10^DIGITS` and its DIGITS characters,
most significant first, and changes only CTR, CODE_VAL, CODE, BUSY and DONE. -/
def Obligations.CodeWritesTheOneTimeCode : Prop :=
  ∀ (s : State) (dflt : Bool) (key : List Byte), s.secret = some key → s.cfg.digits.toNat ≤ 10 →
    ∃ (t : State) (c : DWord) (val : Nat), exec (.code dflt) s = .next t ∧ c.toNat = counterNumber s dflt ∧
      val = (dynTrunc (hmac s.cfg.alg key (serCounter c))).toNat % 10 ^ s.cfg.digits.toNat ∧
      t.ctrHi ++ t.ctrLo = c ∧ t.codeVal.toNat = val ∧
      (∀ j : Fin 12,
        (j.val < s.cfg.digits.toNat →
          t.code[j].toNat = 0x30 + val / 10 ^ (s.cfg.digits.toNat - 1 - j.val) % 10) ∧
        (s.cfg.digits.toNat ≤ j.val → t.code[j] = s.code[j])) ∧
      t = { s with
        ctrHi := t.ctrHi, ctrLo := t.ctrLo, codeVal := t.codeVal, code := t.code, busy := false, done := true }

/-- 45_verify.md R243, R245: in HOTP mode MATCH tells whether the candidate is the code of the one counter, DATA or 0,
and nothing else but BUSY and DONE changes. -/
def Obligations.VerifyHotpComparesOnce : Prop :=
  ∀ (s : State) (dflt : Bool) (key : List Byte), s.secret = some key → s.cfg.mode = .hotp →
    s.cfg.digits.toNat ≤ 10 →
    ∃ (t : State) (c : DWord), exec (.verify dflt) s = .next t ∧ c.toNat = (if dflt then 0 else dataNumber s) ∧
      (t.matched = true ↔ candidateIs s (codeString s key c) s.cfg.digits.toNat) ∧
      t = { s with matched := t.matched, busy := false, done := true }

/-- 45_verify.md R244, R245: in TOTP mode MATCH tells whether the candidate is the code of some counter of the window
around the time slice, positions outside 0 to 2^64 - 1 left out; nothing else but BUSY and DONE changes. -/
def Obligations.VerifyTotpAcceptsExactlyTheWindow : Prop :=
  ∀ (s : State) (dflt : Bool) (key : List Byte), s.secret = some key → s.cfg.mode = .totp →
    s.cfg.digits.toNat ≤ 10 →
    ∃ (t : State) (slice : Nat), exec (.verify dflt) s = .next t ∧
      slice = (if dflt then s.nowLatch.toNat else dataNumber s) / s.period.toNat ∧
      (t.matched = true ↔ ∃ (i : Int) (c : DWord), -(s.cfg.adj.toNat : Int) ≤ i ∧ i ≤ (s.cfg.adj.toNat : Int) ∧
        (c.toNat : Int) = (slice : Int) + i ∧ candidateIs s (codeString s key c) s.cfg.digits.toNat) ∧
      t = { s with matched := t.matched, busy := false, done := true }

/-- 60_exceptions.md R261, R260: HMAC, CODE and VERIFY without a secret fail with NoSecretSet and write nothing else. -/
def Obligations.HashCommandsNeedASecret : Prop :=
  ∀ (s : State) (i : Instr), i.readsSecret = true → s.secret = none →
    exec i s = .next { s with busy := false, done := true, err := true, errcode := 1#8 }

/-- 45_verify.md R246, 44_code.md R225: the code that CODE shows in HOTP mode for a counter within ADJ of the time slice,
entered as the candidate, is accepted by VERIFY in TOTP mode under the same secret, hash and DIGITS. -/
def Obligations.CodeWithinTheWindowIsAccepted : Prop :=
  ∀ (g g' v : State) (dflt : Bool) (key : List Byte) (k : Int),
    g.secret = some key → g.cfg.mode = .hotp → exec (.code false) g = .next g' →
    v.secret = some key → v.cfg.mode = .totp → v.cfg.alg = g.cfg.alg → v.cfg.digits = g.cfg.digits →
    v.cfg.digits.toNat ≤ 10 → v.cand = g'.code → v.candLen.toNat = v.cfg.digits.toNat →
    -(v.cfg.adj.toNat : Int) ≤ k → k ≤ (v.cfg.adj.toNat : Int) →
    (dataNumber g : Int) = ((if dflt then v.nowLatch.toNat else dataNumber v) / v.period.toNat : Nat) + k →
    ∃ t : State, exec (.verify dflt) v = .next t ∧ t.matched = true ∧ t.err = v.err ∧ t.errcode = v.errcode

/-- 44_code.md R223, 30_encoding.md R97: CODE issued twice with nothing in between but the two acceptances leaves the
same code registers and the same state. -/
def Obligations.CodeTwiceGivesTheSameCode : Prop :=
  ∀ (s : State) (dflt : Bool) (rest : List Event),
    s.agenda = .write 0x004 4 (encode (.code dflt)) :: .engine :: .write 0x004 4 (encode (.code dflt)) :: .engine :: rest →
    s.rst = false → s.busy = false →
    ∃ t u : State, runSteps 2 s = .next t ∧ runSteps 4 s = .next u ∧ u = { t with agenda := rest }

/-! ### The functions the commands share -/

/-- 42_sha.md R162: padding fills whole blocks, begins with the message and 0x80, ends with the bit length, and its zero
bytes are as few as possible; the messages the block hashes pad to two blocks, but a key of 120 to 128 bytes under
SHA-1 or SHA-256 to three. -/
def Obligations.PaddingIsMinimal : Prop :=
  ∀ (alg : Alg) (m : List Byte), ∃ z : Nat,
    pad (blockSize alg) (lengthField alg) m =
      m ++ [0x80#8] ++ List.replicate z 0x00#8 ++ serBe (8 * m.length) (lengthField alg) ∧
    (m.length + 1 + z + lengthField alg) % blockSize alg = 0 ∧
    (pad (blockSize alg) (lengthField alg) m).length % blockSize alg = 0 ∧
    (∀ z' : Nat, z' < z → (m.length + 1 + z' + lengthField alg) % blockSize alg ≠ 0) ∧
    (m.length = blockSize alg + 8 ∨ m.length = blockSize alg + digestSize alg ∨
        (alg ≠ .sha512 ∧ 65 ≤ m.length ∧ m.length ≤ 119) →
      (blocks (blockSize alg) (pad (blockSize alg) (lengthField alg) m)).length = 2) ∧
    (alg ≠ .sha512 ∧ 120 ≤ m.length ∧ m.length ≤ 128 →
      (blocks (blockSize alg) (pad (blockSize alg) (lengthField alg) m)).length = 3)

/-- 42_sha.md R160: a digest has 20, 32 or 64 bytes, whatever the message. -/
def Obligations.DigestsHaveTheirSize : Prop :=
  ∀ (alg : Alg) (msg : List Byte),
    (hashOf alg msg).length = (match alg with | .sha1 => 20 | .sha256 => 32 | .sha512 => 64)

/-- 43_hmac.md R202: the result of HMAC has exactly the digest size, and two keys that differ only by trailing zero
bytes, both at most one block long, give the same digest. From R201, which HmacIsTheStandardConstruction states whole: a
key longer than one block gives the digest of its hash. -/
def Obligations.HmacLengthAndTrailingZeroKeys : Prop :=
  (∀ (alg : Alg) (key msg : List Byte),
    (hmac alg key msg).length = (match alg with | .sha1 => 20 | .sha256 => 32 | .sha512 => 64)) ∧
  (∀ (alg : Alg) (key msg : List Byte) (z : Nat), key.length + z ≤ blockSize alg →
    hmac alg (key ++ List.replicate z 0x00#8) msg = hmac alg key msg) ∧
  (∀ (alg : Alg) (key msg : List Byte), blockSize alg < key.length →
    hmac alg key msg = hmac alg (hashOf alg key) msg)

/-- 43_hmac.md R201, byte by byte: the key, hashed first if it is longer than one block, padded with zeros to exactly one
block; the inner and the outer key; the two hashes. A storable key (up to 128 bytes) is hashed first only under SHA-1
and SHA-256, from 65 bytes on. -/
def Obligations.HmacIsTheStandardConstruction : Prop :=
  ∀ (alg : Alg) (key msg : List Byte), ∃ k0 ipadKey opadKey inner : List Byte,
    k0.length = blockSize alg ∧ ipadKey.length = blockSize alg ∧ opadKey.length = blockSize alg ∧
    (key.length ≤ blockSize alg → ∀ j < blockSize alg,
      k0[j]? = if h : j < key.length then some key[j] else some 0x00#8) ∧
    (blockSize alg < key.length → ∀ j < blockSize alg,
      k0[j]? = if h : j < (hashOf alg key).length then some (hashOf alg key)[j] else some 0x00#8) ∧
    (∀ j < blockSize alg, ipadKey[j]? = k0[j]?.map (· ^^^ 0x36#8) ∧ opadKey[j]? = k0[j]?.map (· ^^^ 0x5C#8)) ∧
    inner = hashOf alg (ipadKey ++ msg) ∧ inner.length = digestSize alg ∧
    hmac alg key msg = hashOf alg (opadKey ++ inner) ∧ (hmac alg key msg).length = digestSize alg ∧
    (key.length ≤ 128 → (blockSize alg < key.length ↔ (alg = .sha1 ∨ alg = .sha256) ∧ 65 ≤ key.length))

/-- 42_sha.md R166: the SHA-1 message schedule, word by word. -/
def Obligations.Sha1ScheduleIsTheRecurrence : Prop :=
  ∀ (m : List Byte) (w : Nat → Word), (∀ t, w t = (sha1Schedule m).getD t 0#32) →
    (sha1Schedule m).length = 80 ∧ (∀ t, t < 16 → w t = be32 m (4 * t)) ∧
    ∀ t, 16 ≤ t → t < 80 → w t = (w (t - 3) ^^^ w (t - 8) ^^^ w (t - 14) ^^^ w (t - 16)).rotateLeft 1

/-- 42_sha.md R173, R183: the SHA-256 and SHA-512 message schedules, word by word. -/
def Obligations.Sha2SchedulesAreTheRecurrence : Prop :=
  (∀ (m : List Byte) (w : Nat → Word), (∀ t, w t = (sha256Schedule m).getD t 0#32) →
    (sha256Schedule m).length = 64 ∧ (∀ t, t < 16 → w t = be32 m (4 * t)) ∧
    ∀ t, 16 ≤ t → t < 64 →
      w t = ssig1w32 (w (t - 2)) + w (t - 7) + ssig0w32 (w (t - 15)) + w (t - 16)) ∧
  (∀ (m : List Byte) (w : Nat → DWord), (∀ t, w t = (sha512Schedule m).getD t 0#64) →
    (sha512Schedule m).length = 80 ∧ (∀ t, t < 16 → w t = be64 m (8 * t)) ∧
    ∀ t, 16 ≤ t → t < 80 →
      w t = ssig1w64 (w (t - 2)) + w (t - 7) + ssig0w64 (w (t - 15)) + w (t - 16))

/-- 44_code.md R220: dynamic truncation reads the four bytes at the offset given by the low nibble of the last byte,
all inside the digest, and drops the top bit. -/
def Obligations.TruncationReadsFourBytes : Prop :=
  ∀ d : List Byte, 20 ≤ d.length → ∃ (o : Nat) (last b0 b1 b2 b3 : Byte),
    d.getLast? = some last ∧ o = last.toNat % 16 ∧ o + 3 < d.length - 1 ∧
    d[o]? = some b0 ∧ d[o + 1]? = some b1 ∧ d[o + 2]? = some b2 ∧ d[o + 3]? = some b3 ∧
    (dynTrunc d).toNat = b0.toNat % 128 * 2 ^ 24 + b1.toNat * 2 ^ 16 + b2.toNat * 2 ^ 8 + b3.toNat ∧
    (dynTrunc d).toNat < 2 ^ 31

/-- 44_code.md R221: ten digits keep the whole value, and the value of a code is always below `10^digits`. -/
def Obligations.CodeValueIsReducedExactly : Prop :=
  ∀ p digits : Nat, p < 2 ^ 31 →
    codeValue p 10 = p ∧ codeValue p digits < 10 ^ digits ∧ ∃ q : Nat, p = q * 10 ^ digits + codeValue p digits

/-- 44_code.md R222: the string has exactly `digits` characters, all ASCII digits, and read as a decimal number it is
the value. -/
def Obligations.FormattedCodeSpellsTheValue : Prop :=
  ∀ v digits : Nat, v < 10 ^ digits →
    (fmtDec v digits).length = digits ∧ (∀ b ∈ fmtDec v digits, 0x30 ≤ b.toNat ∧ b.toNat ≤ 0x39) ∧
    (fmtDec v digits).foldl (fun acc b => acc * 10 + (b.toNat - 0x30)) 0 = v

/-- 41_counter.md R145, 20_memory.md R67 (a): eight bytes, and read most significant byte first they are the counter. -/
def Obligations.SerialisedCounterIsBigEndian : Prop :=
  ∀ c : DWord, (serCounter c).length = 8 ∧
    (serCounter c).foldl (fun acc b => acc * 256 + b.toNat) 0 = c.toNat ∧
    ∀ j : Nat, j < 8 → (serCounter c)[j]? = some (c.extractLsb' (8 * (7 - j)) 8)

/-- 45_verify.md R241: the comparator is true exactly when the candidate has the length and the bytes of the string. -/
def Obligations.ComparatorIsStringEquality : Prop :=
  ∀ (s : State) (str : List Byte) (n : Nat), n ≤ 10 → str.length = n →
    (ctEqual s str n = true ↔
      s.candLen.toNat = n ∧ ∀ j : Fin 12, j.val < n → str[j.val]? = some s.cand[j])

/-! ### The whole machine -/

/-- 10_state.md R45: the invariant holds right after reset. -/
def Obligations.ResetMeetsTheInvariant : Prop := State.reset.Inv

/-- 10_state.md R45: every step of every agent keeps the invariant. -/
def Obligations.StepKeepsTheInvariant : Prop :=
  ∀ s t : State, s.Inv → step s = .next t → t.Inv

/-- 10_state.md R24, 40_key.md R125: the secret changes only by a successful KEYSET, which replaces it whole by staged
bytes, and by reset, which unsets it. -/
def Obligations.SecretChangesOnlyByKeysetOrReset : Prop :=
  ∀ s t : State, step s = .next t → t.secret ≠ s.secret →
    (t.secret = none ∧ ∃ (b : Bool) (rest : List Event), s.agenda = .rst b :: rest) ∨
    (s.busy = true ∧ s.rst = false ∧ (∃ rest, engineMoves s rest) ∧
      ∃ gen, decode s.cmdLatch = .ok (.keyset gen) ∧ ¬ badKeyLength gen s.keylen.toNat ∧
        t.secret = some (s.stage.toList.take s.keylen.toNat))

/-- 10_state.md R27: the latches change only by acceptance, which takes the written word and `time_in`, and by reset. -/
def Obligations.LatchesChangeOnlyByAcceptanceOrReset : Prop :=
  ∀ s t : State, step s = .next t → (t.cmdLatch ≠ s.cmdLatch ∨ t.nowLatch ≠ s.nowLatch) →
    (t.cmdLatch = 0#32 ∧ t.nowLatch = 0#64 ∧ ∃ (b : Bool) (rest : List Event), s.agenda = .rst b :: rest) ∨
    (s.busy = false ∧ t.busy = true ∧ t.nowLatch = s.timeIn ∧
      ∃ rest : List Event, s.agenda = .write 0x004 4 t.cmdLatch :: rest)

/-- 10_state.md R30, R31: CFG and PERIOD change only by a legal write while idle and by reset. -/
def Obligations.ConfigurationChangesOnlyByLegalWrites : Prop :=
  ∀ s t : State, step s = .next t → (t.cfg ≠ s.cfg ∨ t.period ≠ s.period) →
    (∃ (b : Bool) (rest : List Event), s.agenda = .rst b :: rest) ∨
    (s.busy = false ∧ ∃ (v : Word) (rest : List Event),
      (s.agenda = .write 0x014 4 v :: rest ∧ legalCfgValue v ∧ t.period = s.period) ∨
      (s.agenda = .write 0x018 4 v :: rest ∧ v ≠ 0#32 ∧ t.period = v ∧ t.cfg = s.cfg))

/-- 10_state.md R43: MATCH is set only by a VERIFY that completes with a secret stored. -/
def Obligations.MatchIsSetOnlyByVerify : Prop :=
  ∀ s t : State, step s = .next t → s.matched = false → t.matched = true →
    s.busy = true ∧ s.secret ≠ none ∧ ∃ dflt, decode s.cmdLatch = .ok (.verify dflt)

/-- 60_exceptions.md R270, R262, R277: `irq` rises only when a command completes or the host writes IE while idle, so no
refused write raises it; acknowledging both bits, and acceptance, lower it, and an acknowledgement keeps ERRCODE and MATCH;
it is low after reset. -/
def Obligations.InterruptRisesAndFallsAsSaid : Prop :=
  (∀ s t : State, step s = .next t → s.irq = false → t.irq = true →
    (s.busy = true ∧ s.rst = false ∧ ∃ rest, engineMoves s rest) ∨
    (s.busy = false ∧ ∃ (v : Word) (rest : List Event), s.agenda = .write 0x010 4 v :: rest)) ∧
  (∀ (s : State) (rest : List Event) (v : Word), s.agenda = .write 0x008 4 v :: rest → s.rst = false →
    s.busy = false → v.getLsbD 1 = true → v.getLsbD 2 = true →
    ∃ t : State, step s = .next t ∧ t.irq = false ∧ t.errcode = s.errcode ∧ t.matched = s.matched) ∧
  (∀ (s : State) (rest : List Event) (w : Word), s.agenda = .write 0x004 4 w :: rest → s.rst = false →
    s.busy = false → ∃ t : State, step s = .next t ∧ t.irq = false) ∧
  State.reset.irq = false

/-- 10_state.md R41, R43, 40_key.md R121, 41_counter.md R144, 43_hmac.md R205, 44_code.md R225, 45_verify.md R245: no
command writes DATA, CAND, CAND_LEN, CFG, PERIOD, IE, CFGREJ, BUSYERR, the two latches, the inputs, `rdata` or the
agenda; and no command but KEYSET writes the secret or KEYSET's own operands, the staging buffer and KEYLEN (KEYSET
does, see OnlyKeysetScrubsAndAlwaysDoes). -/
def Obligations.CommandsNeverWriteOperands : Prop :=
  ∀ (i : Instr) (s t : State), exec i s = .next t →
    t.dataLo = s.dataLo ∧ t.dataHi = s.dataHi ∧ t.cand = s.cand ∧ t.candLen = s.candLen ∧ t.cfg = s.cfg ∧
    t.period = s.period ∧ t.ie = s.ie ∧ t.cfgRej = s.cfgRej ∧ t.busyErr = s.busyErr ∧ t.cmdLatch = s.cmdLatch ∧
    t.nowLatch = s.nowLatch ∧ t.timeIn = s.timeIn ∧ t.rst = s.rst ∧ t.rdata = s.rdata ∧ t.agenda = s.agenda ∧
    ((∀ gen, i ≠ .keyset gen) → t.secret = s.secret ∧ t.stage = s.stage ∧
      t.keylen = s.keylen)

/-- 60_exceptions.md R260, 40_key.md R124: a failing completion sets ERR and the code, ends as every completion ends, and
changes nothing else, but that a failing KEYSET has zeroed the staging buffer and KEYLEN; the secret never changes. -/
def Obligations.FailingCompletionHasNoOtherEffect : Prop :=
  ∀ (s t : State) (rest : List Event), engineMoves s rest → s.rst = false → s.busy = true → step s = .next t →
    s.err = false → t.err = true →
    t = { s with
      agenda := rest, stage := t.stage, keylen := t.keylen, err := true, errcode := t.errcode, busy := false
      done := true } ∧
    (t.errcode = 1#8 ∨ t.errcode = 3#8 ∨ t.errcode = 5#8) ∧
    (((∃ gen, decode s.cmdLatch = .ok (.keyset gen)) ∧ (∀ i : Fin 128, t.stage[i] = 0x00#8) ∧ t.keylen = 0#8) ∨
      ((¬ ∃ gen, decode s.cmdLatch = .ok (.keyset gen)) ∧ t.stage = s.stage ∧ t.keylen = s.keylen))

/-- 40_key.md R124: every KEYSET completion, successful or failing, zeroes the staging buffer and KEYLEN; an illegal
command, or any other, touches neither. -/
def Obligations.OnlyKeysetScrubsAndAlwaysDoes : Prop :=
  ∀ (s t : State) (rest : List Event), engineMoves s rest → s.rst = false → s.busy = true → step s = .next t →
    ((∃ gen, decode s.cmdLatch = .ok (.keyset gen)) → (∀ i : Fin 128, t.stage[i] = 0x00#8) ∧ t.keylen = 0#8) ∧
    ((¬ ∃ gen, decode s.cmdLatch = .ok (.keyset gen)) → t.stage = s.stage ∧ t.keylen = s.keylen)

/-- 60_exceptions.md R261, R275: which error a completion reports, from any state that meets the invariant. -/
def Obligations.ErrorCodeTellsTheCause : Prop :=
  ∀ (s t : State) (rest : List Event), s.Inv → engineMoves s rest → s.rst = false → s.busy = true →
    step s = .next t →
    (t.errcode = 5#8 ↔ s.cmdLatch ∉ tenWords) ∧
    (t.errcode = 1#8 ↔ s.secret = none ∧ ∃ i, decode s.cmdLatch = .ok i ∧ i.readsSecret = true) ∧
    (t.errcode = 3#8 ↔ ∃ gen, decode s.cmdLatch = .ok (.keyset gen) ∧ badKeyLength gen s.keylen.toNat) ∧
    (t.errcode = 0#8 ↔ t.err = false)

/-- 20_memory.md R66, R75, 00_scope.md R6, 70_reset_and_hazards.md R320: whatever legal accesses the host makes and
however `time_in` moves while a command is in progress, the command completes once its turn comes, and the outcome is
that of the same command with nothing in between, but for BUSYERR, `time_in` and the word the port last returned. -/
def Obligations.BusyPeriodDoesNotChangeTheOutcome : Prop :=
  ∀ s : State, s.rst = false → s.busy = true →
    (∀ e ∈ s.agenda, e.legal = true ∧ e.duringBusy = true) →
    ∃ t u : State, step { s with agenda := [] } = .next u ∧ runSteps (s.agenda.length + 1) s = .next t ∧
      t = { u with busyErr := s.busyErr || s.agenda.any Event.isWrite, timeIn := t.timeIn, rdata := t.rdata } ∧
      t.busy = false ∧ t.done = true

/-- 10_state.md R24, R25: two states that differ only in the bytes of the secret and of the staging buffer read the same
at every offset, and one step keeps them so, unless it completes HMAC, CODE or VERIFY. -/
def Obligations.SecretFlowsOnlyThroughHashCommands : Prop :=
  ∀ s s' : State, SameToTheHost s s' →
    (∀ off, hostReads s off = hostReads s' off) ∧
    ((∀ (rest : List Event) (i : Instr), engineMoves s rest → s.busy = true → decode s.cmdLatch = .ok i →
      i.readsSecret = false) → OutcomesAgree (step s) (step s'))

/-- 10_state.md R24, R25: no sequence of host accesses, changes of `time_in` and resets, of any length, tells two such
states apart: as long as the engine has no turn, the outcomes agree, the words read included. -/
def Obligations.HostAccessesCannotSeeTheSecret : Prop :=
  ∀ (k : Nat) (s s' : State), SameToTheHost s s' → (∀ e ∈ s.agenda, e ≠ .engine) → k ≤ s.agenda.length →
    OutcomesAgree (runSteps k s) (runSteps k s')
end

