-- ==== Sys2Proof/Laws/State.lean ====
section
/-! SUPPORT. One lemma per field per named update of State, so that no proof unfolds an update. -/
namespace Sys2Proof.Machine

/-! ### accept -/

@[simp] theorem State.accept_secret (s : State) (w : Word) : (s.accept w).secret = s.secret := rfl
@[simp] theorem State.accept_stage (s : State) (w : Word) : (s.accept w).stage = s.stage := rfl
@[simp] theorem State.accept_keylen (s : State) (w : Word) : (s.accept w).keylen = s.keylen := rfl
@[simp] theorem State.accept_cmdLatch (s : State) (w : Word) : (s.accept w).cmdLatch = w := rfl
@[simp] theorem State.accept_nowLatch (s : State) (w : Word) : (s.accept w).nowLatch = s.timeIn := rfl
@[simp] theorem State.accept_busy (s : State) (w : Word) : (s.accept w).busy = true := rfl
@[simp] theorem State.accept_done (s : State) (w : Word) : (s.accept w).done = false := rfl
@[simp] theorem State.accept_err (s : State) (w : Word) : (s.accept w).err = false := rfl
@[simp] theorem State.accept_matched (s : State) (w : Word) : (s.accept w).matched = false := rfl
@[simp] theorem State.accept_cfgRej (s : State) (w : Word) : (s.accept w).cfgRej = s.cfgRej := rfl
@[simp] theorem State.accept_busyErr (s : State) (w : Word) : (s.accept w).busyErr = s.busyErr := rfl
@[simp] theorem State.accept_errcode (s : State) (w : Word) : (s.accept w).errcode = 0#8 := rfl
@[simp] theorem State.accept_ie (s : State) (w : Word) : (s.accept w).ie = s.ie := rfl
@[simp] theorem State.accept_cfg (s : State) (w : Word) : (s.accept w).cfg = s.cfg := rfl
@[simp] theorem State.accept_period (s : State) (w : Word) : (s.accept w).period = s.period := rfl
@[simp] theorem State.accept_dataLo (s : State) (w : Word) : (s.accept w).dataLo = s.dataLo := rfl
@[simp] theorem State.accept_dataHi (s : State) (w : Word) : (s.accept w).dataHi = s.dataHi := rfl
@[simp] theorem State.accept_candLen (s : State) (w : Word) : (s.accept w).candLen = s.candLen := rfl
@[simp] theorem State.accept_cand (s : State) (w : Word) : (s.accept w).cand = s.cand := rfl
@[simp] theorem State.accept_ctrLo (s : State) (w : Word) : (s.accept w).ctrLo = 0#32 := rfl
@[simp] theorem State.accept_ctrHi (s : State) (w : Word) : (s.accept w).ctrHi = 0#32 := rfl
@[simp] theorem State.accept_codeVal (s : State) (w : Word) : (s.accept w).codeVal = 0#32 := rfl
@[simp] theorem State.accept_code (s : State) (w : Word) : (s.accept w).code = zeroBytes 12 := rfl
@[simp] theorem State.accept_digest (s : State) (w : Word) : (s.accept w).digest = zeroBytes 64 := rfl
@[simp] theorem State.accept_timeIn (s : State) (w : Word) : (s.accept w).timeIn = s.timeIn := rfl
@[simp] theorem State.accept_rst (s : State) (w : Word) : (s.accept w).rst = s.rst := rfl
@[simp] theorem State.accept_rdata (s : State) (w : Word) : (s.accept w).rdata = s.rdata := rfl
@[simp] theorem State.accept_agenda (s : State) (w : Word) : (s.accept w).agenda = s.agenda := rfl

/-! ### finish -/

@[simp] theorem State.finish_secret (s : State) : (s.finish).secret = s.secret := rfl
@[simp] theorem State.finish_stage (s : State) : (s.finish).stage = s.stage := rfl
@[simp] theorem State.finish_keylen (s : State) : (s.finish).keylen = s.keylen := rfl
@[simp] theorem State.finish_cmdLatch (s : State) : (s.finish).cmdLatch = s.cmdLatch := rfl
@[simp] theorem State.finish_nowLatch (s : State) : (s.finish).nowLatch = s.nowLatch := rfl
@[simp] theorem State.finish_busy (s : State) : (s.finish).busy = false := rfl
@[simp] theorem State.finish_done (s : State) : (s.finish).done = true := rfl
@[simp] theorem State.finish_err (s : State) : (s.finish).err = s.err := rfl
@[simp] theorem State.finish_matched (s : State) : (s.finish).matched = s.matched := rfl
@[simp] theorem State.finish_cfgRej (s : State) : (s.finish).cfgRej = s.cfgRej := rfl
@[simp] theorem State.finish_busyErr (s : State) : (s.finish).busyErr = s.busyErr := rfl
@[simp] theorem State.finish_errcode (s : State) : (s.finish).errcode = s.errcode := rfl
@[simp] theorem State.finish_ie (s : State) : (s.finish).ie = s.ie := rfl
@[simp] theorem State.finish_cfg (s : State) : (s.finish).cfg = s.cfg := rfl
@[simp] theorem State.finish_period (s : State) : (s.finish).period = s.period := rfl
@[simp] theorem State.finish_dataLo (s : State) : (s.finish).dataLo = s.dataLo := rfl
@[simp] theorem State.finish_dataHi (s : State) : (s.finish).dataHi = s.dataHi := rfl
@[simp] theorem State.finish_candLen (s : State) : (s.finish).candLen = s.candLen := rfl
@[simp] theorem State.finish_cand (s : State) : (s.finish).cand = s.cand := rfl
@[simp] theorem State.finish_ctrLo (s : State) : (s.finish).ctrLo = s.ctrLo := rfl
@[simp] theorem State.finish_ctrHi (s : State) : (s.finish).ctrHi = s.ctrHi := rfl
@[simp] theorem State.finish_codeVal (s : State) : (s.finish).codeVal = s.codeVal := rfl
@[simp] theorem State.finish_code (s : State) : (s.finish).code = s.code := rfl
@[simp] theorem State.finish_digest (s : State) : (s.finish).digest = s.digest := rfl
@[simp] theorem State.finish_timeIn (s : State) : (s.finish).timeIn = s.timeIn := rfl
@[simp] theorem State.finish_rst (s : State) : (s.finish).rst = s.rst := rfl
@[simp] theorem State.finish_rdata (s : State) : (s.finish).rdata = s.rdata := rfl
@[simp] theorem State.finish_agenda (s : State) : (s.finish).agenda = s.agenda := rfl

/-! ### raise -/

@[simp] theorem State.raise_secret (s : State) (e : ErrKind) : (s.raise e).secret = s.secret := rfl
@[simp] theorem State.raise_stage (s : State) (e : ErrKind) : (s.raise e).stage = s.stage := rfl
@[simp] theorem State.raise_keylen (s : State) (e : ErrKind) : (s.raise e).keylen = s.keylen := rfl
@[simp] theorem State.raise_cmdLatch (s : State) (e : ErrKind) : (s.raise e).cmdLatch = s.cmdLatch := rfl
@[simp] theorem State.raise_nowLatch (s : State) (e : ErrKind) : (s.raise e).nowLatch = s.nowLatch := rfl
@[simp] theorem State.raise_busy (s : State) (e : ErrKind) : (s.raise e).busy = s.busy := rfl
@[simp] theorem State.raise_done (s : State) (e : ErrKind) : (s.raise e).done = s.done := rfl
@[simp] theorem State.raise_err (s : State) (e : ErrKind) : (s.raise e).err = true := rfl
@[simp] theorem State.raise_matched (s : State) (e : ErrKind) : (s.raise e).matched = s.matched := rfl
@[simp] theorem State.raise_cfgRej (s : State) (e : ErrKind) : (s.raise e).cfgRej = s.cfgRej := rfl
@[simp] theorem State.raise_busyErr (s : State) (e : ErrKind) : (s.raise e).busyErr = s.busyErr := rfl
@[simp] theorem State.raise_errcode (s : State) (e : ErrKind) : (s.raise e).errcode = e.code := rfl
@[simp] theorem State.raise_ie (s : State) (e : ErrKind) : (s.raise e).ie = s.ie := rfl
@[simp] theorem State.raise_cfg (s : State) (e : ErrKind) : (s.raise e).cfg = s.cfg := rfl
@[simp] theorem State.raise_period (s : State) (e : ErrKind) : (s.raise e).period = s.period := rfl
@[simp] theorem State.raise_dataLo (s : State) (e : ErrKind) : (s.raise e).dataLo = s.dataLo := rfl
@[simp] theorem State.raise_dataHi (s : State) (e : ErrKind) : (s.raise e).dataHi = s.dataHi := rfl
@[simp] theorem State.raise_candLen (s : State) (e : ErrKind) : (s.raise e).candLen = s.candLen := rfl
@[simp] theorem State.raise_cand (s : State) (e : ErrKind) : (s.raise e).cand = s.cand := rfl
@[simp] theorem State.raise_ctrLo (s : State) (e : ErrKind) : (s.raise e).ctrLo = s.ctrLo := rfl
@[simp] theorem State.raise_ctrHi (s : State) (e : ErrKind) : (s.raise e).ctrHi = s.ctrHi := rfl
@[simp] theorem State.raise_codeVal (s : State) (e : ErrKind) : (s.raise e).codeVal = s.codeVal := rfl
@[simp] theorem State.raise_code (s : State) (e : ErrKind) : (s.raise e).code = s.code := rfl
@[simp] theorem State.raise_digest (s : State) (e : ErrKind) : (s.raise e).digest = s.digest := rfl
@[simp] theorem State.raise_timeIn (s : State) (e : ErrKind) : (s.raise e).timeIn = s.timeIn := rfl
@[simp] theorem State.raise_rst (s : State) (e : ErrKind) : (s.raise e).rst = s.rst := rfl
@[simp] theorem State.raise_rdata (s : State) (e : ErrKind) : (s.raise e).rdata = s.rdata := rfl
@[simp] theorem State.raise_agenda (s : State) (e : ErrKind) : (s.raise e).agenda = s.agenda := rfl

/-! ### failWith -/

@[simp] theorem State.failWith_secret (s : State) (e : ErrKind) : (s.failWith e).secret = s.secret := rfl
@[simp] theorem State.failWith_stage (s : State) (e : ErrKind) : (s.failWith e).stage = s.stage := rfl
@[simp] theorem State.failWith_keylen (s : State) (e : ErrKind) : (s.failWith e).keylen = s.keylen := rfl
@[simp] theorem State.failWith_cmdLatch (s : State) (e : ErrKind) : (s.failWith e).cmdLatch = s.cmdLatch := rfl
@[simp] theorem State.failWith_nowLatch (s : State) (e : ErrKind) : (s.failWith e).nowLatch = s.nowLatch := rfl
@[simp] theorem State.failWith_busy (s : State) (e : ErrKind) : (s.failWith e).busy = false := rfl
@[simp] theorem State.failWith_done (s : State) (e : ErrKind) : (s.failWith e).done = true := rfl
@[simp] theorem State.failWith_err (s : State) (e : ErrKind) : (s.failWith e).err = true := rfl
@[simp] theorem State.failWith_matched (s : State) (e : ErrKind) : (s.failWith e).matched = s.matched := rfl
@[simp] theorem State.failWith_cfgRej (s : State) (e : ErrKind) : (s.failWith e).cfgRej = s.cfgRej := rfl
@[simp] theorem State.failWith_busyErr (s : State) (e : ErrKind) : (s.failWith e).busyErr = s.busyErr := rfl
@[simp] theorem State.failWith_errcode (s : State) (e : ErrKind) : (s.failWith e).errcode = e.code := rfl
@[simp] theorem State.failWith_ie (s : State) (e : ErrKind) : (s.failWith e).ie = s.ie := rfl
@[simp] theorem State.failWith_cfg (s : State) (e : ErrKind) : (s.failWith e).cfg = s.cfg := rfl
@[simp] theorem State.failWith_period (s : State) (e : ErrKind) : (s.failWith e).period = s.period := rfl
@[simp] theorem State.failWith_dataLo (s : State) (e : ErrKind) : (s.failWith e).dataLo = s.dataLo := rfl
@[simp] theorem State.failWith_dataHi (s : State) (e : ErrKind) : (s.failWith e).dataHi = s.dataHi := rfl
@[simp] theorem State.failWith_candLen (s : State) (e : ErrKind) : (s.failWith e).candLen = s.candLen := rfl
@[simp] theorem State.failWith_cand (s : State) (e : ErrKind) : (s.failWith e).cand = s.cand := rfl
@[simp] theorem State.failWith_ctrLo (s : State) (e : ErrKind) : (s.failWith e).ctrLo = s.ctrLo := rfl
@[simp] theorem State.failWith_ctrHi (s : State) (e : ErrKind) : (s.failWith e).ctrHi = s.ctrHi := rfl
@[simp] theorem State.failWith_codeVal (s : State) (e : ErrKind) : (s.failWith e).codeVal = s.codeVal := rfl
@[simp] theorem State.failWith_code (s : State) (e : ErrKind) : (s.failWith e).code = s.code := rfl
@[simp] theorem State.failWith_digest (s : State) (e : ErrKind) : (s.failWith e).digest = s.digest := rfl
@[simp] theorem State.failWith_timeIn (s : State) (e : ErrKind) : (s.failWith e).timeIn = s.timeIn := rfl
@[simp] theorem State.failWith_rst (s : State) (e : ErrKind) : (s.failWith e).rst = s.rst := rfl
@[simp] theorem State.failWith_rdata (s : State) (e : ErrKind) : (s.failWith e).rdata = s.rdata := rfl
@[simp] theorem State.failWith_agenda (s : State) (e : ErrKind) : (s.failWith e).agenda = s.agenda := rfl

/-! ### setCtr -/

@[simp] theorem State.setCtr_secret (s : State) (c : DWord) : (s.setCtr c).secret = s.secret := rfl
@[simp] theorem State.setCtr_stage (s : State) (c : DWord) : (s.setCtr c).stage = s.stage := rfl
@[simp] theorem State.setCtr_keylen (s : State) (c : DWord) : (s.setCtr c).keylen = s.keylen := rfl
@[simp] theorem State.setCtr_cmdLatch (s : State) (c : DWord) : (s.setCtr c).cmdLatch = s.cmdLatch := rfl
@[simp] theorem State.setCtr_nowLatch (s : State) (c : DWord) : (s.setCtr c).nowLatch = s.nowLatch := rfl
@[simp] theorem State.setCtr_busy (s : State) (c : DWord) : (s.setCtr c).busy = s.busy := rfl
@[simp] theorem State.setCtr_done (s : State) (c : DWord) : (s.setCtr c).done = s.done := rfl
@[simp] theorem State.setCtr_err (s : State) (c : DWord) : (s.setCtr c).err = s.err := rfl
@[simp] theorem State.setCtr_matched (s : State) (c : DWord) : (s.setCtr c).matched = s.matched := rfl
@[simp] theorem State.setCtr_cfgRej (s : State) (c : DWord) : (s.setCtr c).cfgRej = s.cfgRej := rfl
@[simp] theorem State.setCtr_busyErr (s : State) (c : DWord) : (s.setCtr c).busyErr = s.busyErr := rfl
@[simp] theorem State.setCtr_errcode (s : State) (c : DWord) : (s.setCtr c).errcode = s.errcode := rfl
@[simp] theorem State.setCtr_ie (s : State) (c : DWord) : (s.setCtr c).ie = s.ie := rfl
@[simp] theorem State.setCtr_cfg (s : State) (c : DWord) : (s.setCtr c).cfg = s.cfg := rfl
@[simp] theorem State.setCtr_period (s : State) (c : DWord) : (s.setCtr c).period = s.period := rfl
@[simp] theorem State.setCtr_dataLo (s : State) (c : DWord) : (s.setCtr c).dataLo = s.dataLo := rfl
@[simp] theorem State.setCtr_dataHi (s : State) (c : DWord) : (s.setCtr c).dataHi = s.dataHi := rfl
@[simp] theorem State.setCtr_candLen (s : State) (c : DWord) : (s.setCtr c).candLen = s.candLen := rfl
@[simp] theorem State.setCtr_cand (s : State) (c : DWord) : (s.setCtr c).cand = s.cand := rfl
@[simp] theorem State.setCtr_ctrLo (s : State) (c : DWord) : (s.setCtr c).ctrLo = c.extractLsb' 0 32 := rfl
@[simp] theorem State.setCtr_ctrHi (s : State) (c : DWord) : (s.setCtr c).ctrHi = c.extractLsb' 32 32 := rfl
@[simp] theorem State.setCtr_codeVal (s : State) (c : DWord) : (s.setCtr c).codeVal = s.codeVal := rfl
@[simp] theorem State.setCtr_code (s : State) (c : DWord) : (s.setCtr c).code = s.code := rfl
@[simp] theorem State.setCtr_digest (s : State) (c : DWord) : (s.setCtr c).digest = s.digest := rfl
@[simp] theorem State.setCtr_timeIn (s : State) (c : DWord) : (s.setCtr c).timeIn = s.timeIn := rfl
@[simp] theorem State.setCtr_rst (s : State) (c : DWord) : (s.setCtr c).rst = s.rst := rfl
@[simp] theorem State.setCtr_rdata (s : State) (c : DWord) : (s.setCtr c).rdata = s.rdata := rfl
@[simp] theorem State.setCtr_agenda (s : State) (c : DWord) : (s.setCtr c).agenda = s.agenda := rfl

/-! ### acknowledge -/

@[simp] theorem State.acknowledge_secret (s : State) (v : Word) : (s.acknowledge v).secret = s.secret := rfl
@[simp] theorem State.acknowledge_stage (s : State) (v : Word) : (s.acknowledge v).stage = s.stage := rfl
@[simp] theorem State.acknowledge_keylen (s : State) (v : Word) : (s.acknowledge v).keylen = s.keylen := rfl
@[simp] theorem State.acknowledge_cmdLatch (s : State) (v : Word) : (s.acknowledge v).cmdLatch = s.cmdLatch := rfl
@[simp] theorem State.acknowledge_nowLatch (s : State) (v : Word) : (s.acknowledge v).nowLatch = s.nowLatch := rfl
@[simp] theorem State.acknowledge_busy (s : State) (v : Word) : (s.acknowledge v).busy = s.busy := rfl
@[simp] theorem State.acknowledge_done (s : State) (v : Word) : (s.acknowledge v).done = (s.done && !v.getLsbD 1) := rfl
@[simp] theorem State.acknowledge_err (s : State) (v : Word) : (s.acknowledge v).err = (s.err && !v.getLsbD 2) := rfl
@[simp] theorem State.acknowledge_matched (s : State) (v : Word) : (s.acknowledge v).matched = s.matched := rfl
@[simp] theorem State.acknowledge_cfgRej (s : State) (v : Word) : (s.acknowledge v).cfgRej = (s.cfgRej && !v.getLsbD 5) := rfl
@[simp] theorem State.acknowledge_busyErr (s : State) (v : Word) : (s.acknowledge v).busyErr = (s.busyErr && !v.getLsbD 6) := rfl
@[simp] theorem State.acknowledge_errcode (s : State) (v : Word) : (s.acknowledge v).errcode = s.errcode := rfl
@[simp] theorem State.acknowledge_ie (s : State) (v : Word) : (s.acknowledge v).ie = s.ie := rfl
@[simp] theorem State.acknowledge_cfg (s : State) (v : Word) : (s.acknowledge v).cfg = s.cfg := rfl
@[simp] theorem State.acknowledge_period (s : State) (v : Word) : (s.acknowledge v).period = s.period := rfl
@[simp] theorem State.acknowledge_dataLo (s : State) (v : Word) : (s.acknowledge v).dataLo = s.dataLo := rfl
@[simp] theorem State.acknowledge_dataHi (s : State) (v : Word) : (s.acknowledge v).dataHi = s.dataHi := rfl
@[simp] theorem State.acknowledge_candLen (s : State) (v : Word) : (s.acknowledge v).candLen = s.candLen := rfl
@[simp] theorem State.acknowledge_cand (s : State) (v : Word) : (s.acknowledge v).cand = s.cand := rfl
@[simp] theorem State.acknowledge_ctrLo (s : State) (v : Word) : (s.acknowledge v).ctrLo = s.ctrLo := rfl
@[simp] theorem State.acknowledge_ctrHi (s : State) (v : Word) : (s.acknowledge v).ctrHi = s.ctrHi := rfl
@[simp] theorem State.acknowledge_codeVal (s : State) (v : Word) : (s.acknowledge v).codeVal = s.codeVal := rfl
@[simp] theorem State.acknowledge_code (s : State) (v : Word) : (s.acknowledge v).code = s.code := rfl
@[simp] theorem State.acknowledge_digest (s : State) (v : Word) : (s.acknowledge v).digest = s.digest := rfl
@[simp] theorem State.acknowledge_timeIn (s : State) (v : Word) : (s.acknowledge v).timeIn = s.timeIn := rfl
@[simp] theorem State.acknowledge_rst (s : State) (v : Word) : (s.acknowledge v).rst = s.rst := rfl
@[simp] theorem State.acknowledge_rdata (s : State) (v : Word) : (s.acknowledge v).rdata = s.rdata := rfl
@[simp] theorem State.acknowledge_agenda (s : State) (v : Word) : (s.acknowledge v).agenda = s.agenda := rfl

/-! ### scrub -/

@[simp] theorem State.scrub_secret (s : State) : (s.scrub).secret = s.secret := rfl
@[simp] theorem State.scrub_stage (s : State) : (s.scrub).stage = zeroBytes 128 := rfl
@[simp] theorem State.scrub_keylen (s : State) : (s.scrub).keylen = 0#8 := rfl
@[simp] theorem State.scrub_cmdLatch (s : State) : (s.scrub).cmdLatch = s.cmdLatch := rfl
@[simp] theorem State.scrub_nowLatch (s : State) : (s.scrub).nowLatch = s.nowLatch := rfl
@[simp] theorem State.scrub_busy (s : State) : (s.scrub).busy = s.busy := rfl
@[simp] theorem State.scrub_done (s : State) : (s.scrub).done = s.done := rfl
@[simp] theorem State.scrub_err (s : State) : (s.scrub).err = s.err := rfl
@[simp] theorem State.scrub_matched (s : State) : (s.scrub).matched = s.matched := rfl
@[simp] theorem State.scrub_cfgRej (s : State) : (s.scrub).cfgRej = s.cfgRej := rfl
@[simp] theorem State.scrub_busyErr (s : State) : (s.scrub).busyErr = s.busyErr := rfl
@[simp] theorem State.scrub_errcode (s : State) : (s.scrub).errcode = s.errcode := rfl
@[simp] theorem State.scrub_ie (s : State) : (s.scrub).ie = s.ie := rfl
@[simp] theorem State.scrub_cfg (s : State) : (s.scrub).cfg = s.cfg := rfl
@[simp] theorem State.scrub_period (s : State) : (s.scrub).period = s.period := rfl
@[simp] theorem State.scrub_dataLo (s : State) : (s.scrub).dataLo = s.dataLo := rfl
@[simp] theorem State.scrub_dataHi (s : State) : (s.scrub).dataHi = s.dataHi := rfl
@[simp] theorem State.scrub_candLen (s : State) : (s.scrub).candLen = s.candLen := rfl
@[simp] theorem State.scrub_cand (s : State) : (s.scrub).cand = s.cand := rfl
@[simp] theorem State.scrub_ctrLo (s : State) : (s.scrub).ctrLo = s.ctrLo := rfl
@[simp] theorem State.scrub_ctrHi (s : State) : (s.scrub).ctrHi = s.ctrHi := rfl
@[simp] theorem State.scrub_codeVal (s : State) : (s.scrub).codeVal = s.codeVal := rfl
@[simp] theorem State.scrub_code (s : State) : (s.scrub).code = s.code := rfl
@[simp] theorem State.scrub_digest (s : State) : (s.scrub).digest = s.digest := rfl
@[simp] theorem State.scrub_timeIn (s : State) : (s.scrub).timeIn = s.timeIn := rfl
@[simp] theorem State.scrub_rst (s : State) : (s.scrub).rst = s.rst := rfl
@[simp] theorem State.scrub_rdata (s : State) : (s.scrub).rdata = s.rdata := rfl
@[simp] theorem State.scrub_agenda (s : State) : (s.scrub).agenda = s.agenda := rfl

/-! ### resetBlock -/

@[simp] theorem State.resetBlock_secret (s : State) : (s.resetBlock).secret = State.reset.secret := rfl
@[simp] theorem State.resetBlock_stage (s : State) : (s.resetBlock).stage = State.reset.stage := rfl
@[simp] theorem State.resetBlock_keylen (s : State) : (s.resetBlock).keylen = State.reset.keylen := rfl
@[simp] theorem State.resetBlock_cmdLatch (s : State) : (s.resetBlock).cmdLatch = State.reset.cmdLatch := rfl
@[simp] theorem State.resetBlock_nowLatch (s : State) : (s.resetBlock).nowLatch = State.reset.nowLatch := rfl
@[simp] theorem State.resetBlock_busy (s : State) : (s.resetBlock).busy = State.reset.busy := rfl
@[simp] theorem State.resetBlock_done (s : State) : (s.resetBlock).done = State.reset.done := rfl
@[simp] theorem State.resetBlock_err (s : State) : (s.resetBlock).err = State.reset.err := rfl
@[simp] theorem State.resetBlock_matched (s : State) : (s.resetBlock).matched = State.reset.matched := rfl
@[simp] theorem State.resetBlock_cfgRej (s : State) : (s.resetBlock).cfgRej = State.reset.cfgRej := rfl
@[simp] theorem State.resetBlock_busyErr (s : State) : (s.resetBlock).busyErr = State.reset.busyErr := rfl
@[simp] theorem State.resetBlock_errcode (s : State) : (s.resetBlock).errcode = State.reset.errcode := rfl
@[simp] theorem State.resetBlock_ie (s : State) : (s.resetBlock).ie = State.reset.ie := rfl
@[simp] theorem State.resetBlock_cfg (s : State) : (s.resetBlock).cfg = State.reset.cfg := rfl
@[simp] theorem State.resetBlock_period (s : State) : (s.resetBlock).period = State.reset.period := rfl
@[simp] theorem State.resetBlock_dataLo (s : State) : (s.resetBlock).dataLo = State.reset.dataLo := rfl
@[simp] theorem State.resetBlock_dataHi (s : State) : (s.resetBlock).dataHi = State.reset.dataHi := rfl
@[simp] theorem State.resetBlock_candLen (s : State) : (s.resetBlock).candLen = State.reset.candLen := rfl
@[simp] theorem State.resetBlock_cand (s : State) : (s.resetBlock).cand = State.reset.cand := rfl
@[simp] theorem State.resetBlock_ctrLo (s : State) : (s.resetBlock).ctrLo = State.reset.ctrLo := rfl
@[simp] theorem State.resetBlock_ctrHi (s : State) : (s.resetBlock).ctrHi = State.reset.ctrHi := rfl
@[simp] theorem State.resetBlock_codeVal (s : State) : (s.resetBlock).codeVal = State.reset.codeVal := rfl
@[simp] theorem State.resetBlock_code (s : State) : (s.resetBlock).code = State.reset.code := rfl
@[simp] theorem State.resetBlock_digest (s : State) : (s.resetBlock).digest = State.reset.digest := rfl
@[simp] theorem State.resetBlock_timeIn (s : State) : (s.resetBlock).timeIn = s.timeIn := rfl
@[simp] theorem State.resetBlock_rst (s : State) : (s.resetBlock).rst = s.rst := rfl
@[simp] theorem State.resetBlock_rdata (s : State) : (s.resetBlock).rdata = s.rdata := rfl
@[simp] theorem State.resetBlock_agenda (s : State) : (s.resetBlock).agenda = s.agenda := rfl

end Sys2Proof.Machine
end

