-- ==== Sys2Proof/Laws/Bytes.lean ====
section
/-! SUPPORT. What the byte-string operations of Machine/Ops.lean do: one lemma per operation, cited instead of
unfolding it. -/
namespace Sys2Proof.Machine

@[simp] theorem zeroBytes_getElem (n i : Nat) (h : i < n) : (zeroBytes n)[i] = 0x00#8 := by
  simp [zeroBytes]

@[simp] theorem serBe_length (v n : Nat) : (serBe v n).length = n := by
  simp [serBe]

theorem serBe_getElem? (v n j : Nat) (h : j < n) :
    (serBe v n)[j]? = some (BitVec.ofNat 8 (v >>> (8 * (n - 1 - j)))) := by
  simp [serBe, h]

/-- Four bytes read big-endian, as a number. -/
theorem be32_toNat (s : List Byte) (i : Nat) :
    (be32 s i).toNat = (s.getD i 0#8).toNat * 2 ^ 24 + (s.getD (i + 1) 0#8).toNat * 2 ^ 16
      + (s.getD (i + 2) 0#8).toNat * 2 ^ 8 + (s.getD (i + 3) 0#8).toNat := by
  have h0 := (s.getD i 0#8).isLt
  have h1 := (s.getD (i + 1) 0#8).isLt
  have h2 := (s.getD (i + 2) 0#8).isLt
  have h3 := (s.getD (i + 3) 0#8).isLt
  simp only [be32, BitVec.toNat_ofNat]
  omega

/-- Four bytes read big-endian, as a concatenation. -/
theorem be32_eq_append (s : List Byte) (i : Nat) :
    be32 s i = s.getD i 0#8 ++ s.getD (i + 1) 0#8 ++ s.getD (i + 2) 0#8 ++ s.getD (i + 3) 0#8 := by
  apply BitVec.eq_of_toNat_eq
  rw [be32_toNat]
  have h1 := (s.getD (i + 1) 0#8).isLt
  have h2 := (s.getD (i + 2) 0#8).isLt
  have h3 := (s.getD (i + 3) 0#8).isLt
  simp only [BitVec.toNat_append]
  rw [← Nat.shiftLeft_add_eq_or_of_lt h3, ← Nat.shiftLeft_add_eq_or_of_lt h2, ← Nat.shiftLeft_add_eq_or_of_lt h1]
  simp only [Nat.shiftLeft_eq]
  omega

theorem toList_getD {n : Nat} (b : Vector Byte n) (i : Nat) (h : i < n) : b.toList.getD i 0#8 = b[i] := by
  simp [List.getD, h]

/-- A word of a register group is its four bytes, the first most significant (20_memory.md R70). -/
theorem wordOf_eq_append {n : Nat} (b : Vector Byte n) (k : Nat) (h : 4 * k + 3 < n) :
    wordOf b k = b[4 * k] ++ b[4 * k + 1] ++ b[4 * k + 2] ++ b[4 * k + 3] := by
  rw [wordOf, be32_eq_append, toList_getD b _ (by omega), toList_getD b _ (by omega), toList_getD b _ (by omega),
    toList_getD b _ h]

/-- Storing a word changes the four bytes of that word and no other (20_memory.md R70). -/
theorem setWord_getElem {n : Nat} (b : Vector Byte n) (k : Nat) (v : Word) (i : Nat) (h : i < n) :
    (setWord b k v)[i] = if i / 4 = k then v.extractLsb' (24 - 8 * (i % 4)) 8 else b[i] := by
  simp only [setWord, Vector.getElem_setIfInBounds]
  by_cases hk : i / 4 = k
  · obtain h0 | h0 | h0 | h0 : i % 4 = 0 ∨ i % 4 = 1 ∨ i % 4 = 2 ∨ i % 4 = 3 := by omega
    · have : 4 * k = i := by omega
      simp [hk, h0, this]
    · have : 4 * k + 1 = i := by omega
      have h1 : 4 * k + 2 ≠ i := by omega
      have h2 : 4 * k + 3 ≠ i := by omega
      simp [hk, h0, this, h1, h2]
    · have : 4 * k + 2 = i := by omega
      have h2 : 4 * k + 3 ≠ i := by omega
      simp [hk, h0, this, h2]
    · have : 4 * k + 3 = i := by omega
      simp [hk, h0, this]
  · have h0 : 4 * k ≠ i := by omega
    have h1 : 4 * k + 1 ≠ i := by omega
    have h2 : 4 * k + 2 ≠ i := by omega
    have h3 : 4 * k + 3 ≠ i := by omega
    simp [hk, h0, h1, h2, h3]

/-- A stored word reads back. -/
theorem wordOf_setWord_same {n : Nat} (b : Vector Byte n) (k : Nat) (v : Word) (h : 4 * k + 3 < n) :
    wordOf (setWord b k v) k = v := by
  rw [wordOf_eq_append _ _ h, setWord_getElem, setWord_getElem, setWord_getElem, setWord_getElem]
  have e0 : 4 * k / 4 = k := by omega
  have e1 : (4 * k + 1) / 4 = k := by omega
  have e2 : (4 * k + 2) / 4 = k := by omega
  have e3 : (4 * k + 3) / 4 = k := by omega
  have m0 : 4 * k % 4 = 0 := by omega
  have m1 : (4 * k + 1) % 4 = 1 := by omega
  have m2 : (4 * k + 2) % 4 = 2 := by omega
  have m3 : (4 * k + 3) % 4 = 3 := by omega
  simp only [e0, e1, e2, e3, m0, m1, m2, m3, if_true]
  apply BitVec.eq_of_toNat_eq
  simp only [BitVec.toNat_append, BitVec.extractLsb'_toNat]
  rw [← Nat.shiftLeft_add_eq_or_of_lt (Nat.mod_lt _ (by decide)), ← Nat.shiftLeft_add_eq_or_of_lt (Nat.mod_lt _ (by decide)),
    ← Nat.shiftLeft_add_eq_or_of_lt (Nat.mod_lt _ (by decide))]
  simp only [Nat.shiftLeft_eq, Nat.shiftRight_eq_div_pow]
  have := v.isLt
  omega

/-- A word stored elsewhere leaves a word alone. -/
theorem wordOf_setWord_other {n : Nat} (b : Vector Byte n) (k j : Nat) (v : Word) (h : 4 * j + 3 < n) (hkj : j ≠ k) :
    wordOf (setWord b k v) j = wordOf b j := by
  rw [wordOf_eq_append _ _ h, wordOf_eq_append _ _ h, setWord_getElem, setWord_getElem, setWord_getElem, setWord_getElem]
  have e0 : 4 * j / 4 ≠ k := by omega
  have e1 : (4 * j + 1) / 4 ≠ k := by omega
  have e2 : (4 * j + 2) / 4 ≠ k := by omega
  have e3 : (4 * j + 3) / 4 ≠ k := by omega
  simp only [e0, e1, e2, e3, if_false]

/-- The front of a group takes the string, the rest stays. -/
theorem overwriteFront_getElem {n : Nat} (b : Vector Byte n) (l : List Byte) (i : Nat) (h : i < n) :
    (overwriteFront b l)[i] = l.getD i b[i] := by
  simp [overwriteFront]

theorem overwriteFront_getElem_lt {n : Nat} (b : Vector Byte n) (l : List Byte) (i : Nat) (h : i < n)
    (hl : i < l.length) : (overwriteFront b l)[i] = l[i] := by
  simp [overwriteFront, List.getD, hl]

theorem overwriteFront_getElem_ge {n : Nat} (b : Vector Byte n) (l : List Byte) (i : Nat) (h : i < n)
    (hl : l.length ≤ i) : (overwriteFront b l)[i] = b[i] := by
  simp [overwriteFront, List.getD, hl]

/-- The two halves written by `x[CTR] <- c` are `c`. -/
@[simp] theorem State.setCtr_ctr (s : State) (c : DWord) : (s.setCtr c).ctr = c := by
  apply BitVec.eq_of_toNat_eq
  simp only [State.ctr, State.setCtr, BitVec.toNat_append, BitVec.extractLsb'_toNat]
  rw [← Nat.shiftLeft_add_eq_or_of_lt (Nat.mod_lt _ (by decide))]
  simp only [Nat.shiftLeft_eq, Nat.shiftRight_eq_div_pow]
  have := c.isLt
  omega

/-- `x[DATA]` as a number (10_state.md R32). -/
theorem State.data_toNat (s : State) : s.data.toNat = s.dataHi.toNat * 2 ^ 32 + s.dataLo.toNat := by
  have h := s.dataLo.isLt
  simp only [State.data, BitVec.toNat_append]
  rw [← Nat.shiftLeft_add_eq_or_of_lt h]
  simp only [Nat.shiftLeft_eq]

/-- CTR as a number (10_state.md R35). -/
theorem State.ctr_toNat (s : State) : s.ctr.toNat = s.ctrHi.toNat * 2 ^ 32 + s.ctrLo.toNat := by
  have h := s.ctrLo.isLt
  simp only [State.ctr, BitVec.toNat_append]
  rw [← Nat.shiftLeft_add_eq_or_of_lt h]
  simp only [Nat.shiftLeft_eq]

end Sys2Proof.Machine
end

