-- ==== Sys2Proof/Laws/Window.lean ====
section
/-! SUPPORT. Which register an offset names, and what a legal access of the host does. -/
namespace Sys2Proof.Machine

/-! ### The register groups (10_state.md R20) -/

theorem regAt_cand (k : Nat) (h : k < 3) : regAt (0x030 + 4 * k) = .cand ⟨k, h⟩ := by
  obtain rfl | rfl | rfl : k = 0 ∨ k = 1 ∨ k = 2 := by omega
  all_goals rfl

theorem regAt_code (k : Nat) (h : k < 3) : regAt (0x050 + 4 * k) = .code ⟨k, h⟩ := by
  obtain rfl | rfl | rfl : k = 0 ∨ k = 1 ∨ k = 2 := by omega
  all_goals rfl

theorem regAt_digest (k : Nat) (h : k < 16) : regAt (0x080 + 4 * k) = .digest ⟨k, h⟩ := by
  have : ∀ k : Fin 16, regAt (0x080 + 4 * k.val) = .digest k := by decide
  exact this ⟨k, h⟩

theorem regAt_keyw (k : Nat) (h : k < 32) : regAt (0x100 + 4 * k) = .keyw ⟨k, h⟩ := by
  have : ∀ k : Fin 32, regAt (0x100 + 4 * k.val) = .keyw k := by decide
  exact this ⟨k, h⟩

/-- The offset of each named register (10_state.md R20). -/
def Reg.offset : Reg → Nat
  | .id => 0x000
  | .cmd => 0x004
  | .status => 0x008
  | .errcode => 0x00C
  | .ie => 0x010
  | .cfg => 0x014
  | .period => 0x018
  | .dataLo => 0x020
  | .dataHi => 0x024
  | .candLen => 0x028
  | .cand k => 0x030 + 4 * k.val
  | .ctrLo => 0x040
  | .ctrHi => 0x044
  | .codeVal => 0x048
  | .code k => 0x050 + 4 * k.val
  | .keylen => 0x060
  | .digest k => 0x080 + 4 * k.val
  | .keyw k => 0x100 + 4 * k.val
  | .reserved => 0x01C

theorem regAt_offset (r : Reg) : regAt r.offset = r := by
  cases r with
  | cand k => exact regAt_cand k.val k.isLt
  | code k => exact regAt_code k.val k.isLt
  | digest k => exact regAt_digest k.val k.isLt
  | keyw k => exact regAt_keyw k.val k.isLt
  | _ => rfl

/-- An aligned offset of the window is the offset of the register it names, or names none. -/
theorem regAt_cases (off : Nat) (h4 : off % 4 = 0) (hw : off < 512) :
    regAt off = .reserved ∨ (regAt off).offset = off := by
  have : ∀ i : Fin 128, regAt (4 * i.val) = .reserved ∨ (regAt (4 * i.val)).offset = 4 * i.val := by decide
  have h := this ⟨off / 4, by omega⟩
  have e : 4 * (off / 4) = off := by omega
  simpa only [e] using h

/-- Two aligned offsets that name one register other than `reserved` are equal. -/
theorem regAt_injective (off off' : Nat) (h4 : off % 4 = 0) (hw : off < 512) (h4' : off' % 4 = 0) (hw' : off' < 512)
    (h : regAt off = regAt off') (hr : regAt off ≠ .reserved) : off = off' := by
  have e := (regAt_cases off h4 hw).resolve_left hr
  have e' := (regAt_cases off' h4' hw').resolve_left (h ▸ hr)
  rw [← e, ← e', h]

/-! ### Accesses -/

/-- A legal access of a block not in reset reaches the register its offset names. -/
theorem hostAccess_legal (s : State) (off : Nat) (k : Reg → State) (h4 : off % 4 = 0) (hw : off < 512)
    (hr : s.rst = false) : hostAccess s off 4 k = .next (k (regAt off)) := by
  simp [hostAccess, h4, hr, Config.windowBytes, Nat.not_le.mpr hw]

/-- The three ways an access stops, and what it does when it does not. -/
theorem hostAccess_cases (s : State) (off size : Nat) (k : Reg → State) :
    ((size ≠ 4 ∨ off % 4 ≠ 0) ∧ hostAccess s off size k = .refused (.notOneAlignedWord off size)) ∨
    (size = 4 ∧ off % 4 = 0 ∧ 512 ≤ off ∧ hostAccess s off size k = .fault (.outsideWindow off)) ∨
    (size = 4 ∧ off % 4 = 0 ∧ off < 512 ∧ s.rst = true ∧ hostAccess s off size k = .fault .accessDuringReset) ∨
    (size = 4 ∧ off % 4 = 0 ∧ off < 512 ∧ s.rst = false ∧ hostAccess s off size k = .next (k (regAt off))) := by
  unfold hostAccess Config.windowBytes
  by_cases h : size ≠ 4 ∨ off % 4 ≠ 0
  · simp [h]
  · obtain ⟨h1, h2⟩ : size = 4 ∧ off % 4 = 0 := by omega
    by_cases h3 : 512 ≤ off
    · simp [h1, h2, h3]
    · cases h4 : s.rst <;> simp [h1, h2, h3] <;> omega

/-- What a read of a legal offset returns. -/
theorem hostReads_legal (s : State) (off : Nat) (h4 : off % 4 = 0) (hw : off < 512) (hr : s.rst = false) :
    hostReads s off = some (regRead s (regAt off)) := by
  have h : step { s with agenda := [.read off 4] } =
      .next { s with agenda := [], rdata := regRead { s with agenda := [] } (regAt off) } :=
    hostAccess_legal { s with agenda := [] } off
      (fun r => { s with agenda := [], rdata := regRead { s with agenda := [] } r }) h4 hw hr
  unfold hostReads
  rw [h]
  cases regAt off <;> rfl

/-- A read of any other offset, or in reset, returns nothing. -/
theorem hostReads_none (s : State) (off : Nat) (h : ¬ (off % 4 = 0 ∧ off < 512 ∧ s.rst = false)) :
    hostReads s off = none := by
  unfold hostReads
  have e : step { s with agenda := [.read off 4] } = hostAccess { s with agenda := [] } off 4
      (fun r => { s with agenda := [], rdata := regRead { s with agenda := [] } r }) := rfl
  rw [e]
  rcases hostAccess_cases { s with agenda := [] } off 4
      (fun r => { s with agenda := [], rdata := regRead { s with agenda := [] } r }) with
    ⟨_, e⟩ | ⟨_, _, _, e⟩ | ⟨_, _, _, _, e⟩ | ⟨_, h1, h2, h3, _⟩
  · rw [e]
  · rw [e]
  · rw [e]
  · exact absurd ⟨h1, h2, h3⟩ h

/-- A step takes the next event of the agenda. -/
theorem step_cons (s : State) (e : Event) (rest : List Event) (ha : s.agenda = e :: rest) :
    step s = runEvent e { s with agenda := rest } := by
  unfold step
  rw [ha]

/-- The step that takes a legal write. -/
theorem step_write (s : State) (rest : List Event) (off : Nat) (v : Word) (ha : s.agenda = .write off 4 v :: rest)
    (h4 : off % 4 = 0) (hw : off < 512) (hr : s.rst = false) :
    step s = .next (regWrite { s with agenda := rest } v (regAt off)) := by
  unfold step
  rw [ha]
  exact hostAccess_legal { s with agenda := rest } off _ h4 hw hr

/-- The step that takes a legal read. -/
theorem step_read (s : State) (rest : List Event) (off : Nat) (ha : s.agenda = .read off 4 :: rest)
    (h4 : off % 4 = 0) (hw : off < 512) (hr : s.rst = false) :
    step s = .next { s with agenda := rest, rdata := regRead s (regAt off) } := by
  have e : step s = hostAccess { s with agenda := rest } off 4
      (fun r => { s with agenda := rest, rdata := regRead { s with agenda := rest } r }) := by
    unfold step
    rw [ha]
    rfl
  rw [e, hostAccess_legal { s with agenda := rest } off _ h4 hw hr]
  cases regAt off <;> rfl

@[simp] theorem regWrite_busy (s : State) (v : Word) (r : Reg) (h : s.busy = true) :
    regWrite s v r = { s with busyErr := true } := by
  simp [regWrite, h]

@[simp] theorem regWrite_idle (s : State) (v : Word) (r : Reg) (h : s.busy = false) :
    regWrite s v r = writeIdle s v r := by
  simp [regWrite, h]

/-- The legality test of a CFG value, by numbers (10_state.md R30). -/
theorem cfgLegal_iff (v : Word) : cfgLegal v = true ↔
    v.toNat / 2 % 4 ≠ 3 ∧ 1 ≤ v.toNat / 16 % 16 ∧ v.toNat / 16 % 16 ≤ 10 ∧ v.toNat / 8 % 2 = 0 ∧
      v.toNat / 65536 = 0 := by
  have hv := v.isLt
  have e1 : (v.extractLsb' 1 2 = 3#2) ↔ v.toNat / 2 % 4 = 3 := by
    rw [← BitVec.toNat_inj]
    simp [BitVec.extractLsb'_toNat, Nat.shiftRight_eq_div_pow]
  have e2 : (v.extractLsb' 4 4).toNat = v.toNat / 16 % 16 := by
    simp [BitVec.extractLsb'_toNat, Nat.shiftRight_eq_div_pow]
  have e3 : v.getLsbD 3 = decide (v.toNat / 8 % 2 = 1) := by
    simp [BitVec.getLsbD, Nat.testBit_eq_decide_div_mod_eq]
  have e4 : (v.extractLsb' 16 16 = 0#16) ↔ v.toNat / 65536 = 0 := by
    rw [← BitVec.toNat_inj]
    simp [BitVec.extractLsb'_toNat, Nat.shiftRight_eq_div_pow]
    omega
  simp only [cfgLegal, Config.digitsMin, Config.digitsMax, Bool.and_eq_true, bne_iff_ne, ne_eq, decide_eq_true_eq,
    Bool.not_eq_true', beq_iff_eq, e1, e2, e3, e4, decide_eq_false_iff_not]
  omega

end Sys2Proof.Machine
end

