-- ==== Sys2Proof/Laws/Machine.lean ====
section
/-! SUPPORT. What a command and a step can do, said once: one inversion lemma for each command, for the engine's turn and
for the step; every invariant follows from them. -/
namespace Sys2Proof.Machine

/-! ### The commands -/

theorem keyLengthRefused_iff (gen : Bool) (n : Nat) :
    keyLengthRefused gen n = true ↔ n = 0 ∨ 128 < n ∨ (gen = true ∧ n < 16) := by
  have e : keyLengthRefused gen n = (decide (n = 0) || decide (128 < n) || (gen && decide (n < 16))) := rfl
  simp [e, or_assoc]

/-- KEYSET fails with the scrubbing, or stores the staged bytes. -/
theorem execKeyset_cases (gen : Bool) (s : State) :
    (keyLengthRefused gen s.keylen.toNat = true ∧
      execKeyset gen s = .next (s.scrub.failWith .invalidSecretLength)) ∨
    (keyLengthRefused gen s.keylen.toNat = false ∧
      execKeyset gen s = .next { s.scrub with secret := some (s.stage.toList.take s.keylen.toNat) }.finish) := by
  cases h : keyLengthRefused gen s.keylen.toNat <;> simp [execKeyset, h]

/-- HMAC, CODE and VERIFY fail alike without a secret. -/
theorem exec_without_secret (i : Instr) (s : State) (hi : i.readsSecret = true) (hs : s.secret = none) :
    exec i s = .next (s.failWith .noSecretSet) := by
  cases i <;> simp_all [exec, execHmac, execCode, execVerify, Instr.readsSecret]

theorem execHmac_some (dflt : Bool) (s : State) (key : List Byte) (h : s.secret = some key) :
    execHmac dflt s = .next { s.setCtr (resolveCounter s dflt) with
      digest := overwriteFront s.digest (hmac s.cfg.alg key (serCounter (resolveCounter s dflt))) }.finish := by
  simp [execHmac, h]

theorem execCode_some (dflt : Bool) (s : State) (key : List Byte) (h : s.secret = some key) :
    execCode dflt s = .next { s.setCtr (resolveCounter s dflt) with
      codeVal := BitVec.ofNat 32 (otp s.cfg.alg key s.cfg.digits.toNat (resolveCounter s dflt)).1
      code := overwriteFront s.code (otp s.cfg.alg key s.cfg.digits.toNat (resolveCounter s dflt)).2 }.finish := by
  simp [execCode, h]

theorem execVerify_some (dflt : Bool) (s : State) (key : List Byte) (h : s.secret = some key) :
    execVerify dflt s = .next { s with matched := verdict s key dflt }.finish := by
  simp [execVerify, h]

/-- What a command can do: KEYSET's two cases, SLICE, the failure of a command without a secret, and the three commands
with one. -/
theorem exec_cases (i : Instr) (s : State) :
    (∃ gen, i = .keyset gen ∧ keyLengthRefused gen s.keylen.toNat = true ∧
      exec i s = .next (s.scrub.failWith .invalidSecretLength)) ∨
    (∃ gen, i = .keyset gen ∧ keyLengthRefused gen s.keylen.toNat = false ∧
      exec i s = .next { s.scrub with secret := some (s.stage.toList.take s.keylen.toNat) }.finish) ∨
    (∃ dflt, i = .slice dflt ∧ exec i s = .next (s.setCtr (timeslice s (sliceTimestamp s dflt))).finish) ∨
    (i.readsSecret = true ∧ s.secret = none ∧ exec i s = .next (s.failWith .noSecretSet)) ∨
    (∃ dflt key c d, i = .hmac dflt ∧ s.secret = some key ∧ c = resolveCounter s dflt ∧
      d = hmac s.cfg.alg key (serCounter c) ∧
      exec i s = .next { s.setCtr c with digest := overwriteFront s.digest d }.finish) ∨
    (∃ dflt key c r, i = .code dflt ∧ s.secret = some key ∧ c = resolveCounter s dflt ∧
      r = otp s.cfg.alg key s.cfg.digits.toNat c ∧
      exec i s = .next { s.setCtr c with
        codeVal := BitVec.ofNat 32 r.1, code := overwriteFront s.code r.2 }.finish) ∨
    (∃ dflt key m, i = .verify dflt ∧ s.secret = some key ∧ m = verdict s key dflt ∧
      exec i s = .next { s with matched := m }.finish) := by
  cases i with
  | keyset gen =>
    rcases execKeyset_cases gen s with ⟨h, e⟩ | ⟨h, e⟩
    · exact .inl ⟨gen, rfl, h, e⟩
    · exact .inr (.inl ⟨gen, rfl, h, e⟩)
  | slice dflt => exact .inr (.inr (.inl ⟨dflt, rfl, rfl⟩))
  | hmac dflt =>
    rcases Option.eq_none_or_eq_some s.secret with hs | ⟨key, hs⟩
    · exact .inr (.inr (.inr (.inl ⟨rfl, hs, exec_without_secret _ s rfl hs⟩)))
    · exact .inr (.inr (.inr (.inr (.inl ⟨dflt, key, _, _, rfl, hs, rfl, rfl, execHmac_some dflt s key hs⟩))))
  | code dflt =>
    rcases Option.eq_none_or_eq_some s.secret with hs | ⟨key, hs⟩
    · exact .inr (.inr (.inr (.inl ⟨rfl, hs, exec_without_secret _ s rfl hs⟩)))
    · exact .inr (.inr (.inr (.inr (.inr (.inl ⟨dflt, key, _, _, rfl, hs, rfl, rfl, execCode_some dflt s key hs⟩)))))
  | verify dflt =>
    rcases Option.eq_none_or_eq_some s.secret with hs | ⟨key, hs⟩
    · exact .inr (.inr (.inr (.inl ⟨rfl, hs, exec_without_secret _ s rfl hs⟩)))
    · exact .inr (.inr (.inr (.inr (.inr (.inr ⟨dflt, key, _, rfl, hs, rfl, execVerify_some dflt s key hs⟩)))))

/-- A command always answers a next state. -/
theorem exec_next (i : Instr) (s : State) : ∃ t, exec i s = .next t := by
  rcases exec_cases i s with ⟨_, _, _, e⟩ | ⟨_, _, _, e⟩ | ⟨_, _, e⟩ | ⟨_, _, e⟩ | ⟨_, _, _, _, _, _, _, _, e⟩ |
    ⟨_, _, _, _, _, _, _, _, e⟩ | ⟨_, _, _, _, _, _, e⟩ <;> exact ⟨_, e⟩

/-! ### The engine's turn -/

/-- What the engine's turn can do: nothing, the command of the latch, or IllegalCommand. -/
theorem engineTurn_cases (s : State) :
    ((s.busy = false ∨ s.rst = true) ∧ engineTurn s = .next s) ∨
    (s.busy = true ∧ s.rst = false ∧ ∃ i, decode s.cmdLatch = .ok i ∧ engineTurn s = exec i s) ∨
    (s.busy = true ∧ s.rst = false ∧ (∃ r, decode s.cmdLatch = .error r) ∧
      engineTurn s = .next (s.failWith .illegalCommand)) := by
  rcases Bool.eq_false_or_eq_true s.busy with hb | hb <;> rcases Bool.eq_false_or_eq_true s.rst with hr | hr <;>
    simp [engineTurn, hb, hr]
  cases hd : decode s.cmdLatch <;> simp [completion, hd]

/-- The step at the engine's turn. -/
theorem step_engine (s : State) (rest : List Event) (h : engineMoves s rest) :
    step s = engineTurn { s with agenda := rest } := by
  rcases h with ⟨h, rfl⟩ | h
  · have e : s = { s with agenda := [] } := by
      cases s
      simp_all
    unfold step
    rw [h]
    exact congrArg engineTurn e
  · unfold step
    rw [h]
    rfl

/-! ### The step -/

/-- What a step that answers a next state did: the engine's turn, a read, a write, a change of `time_in`, or a change
of `rst`. -/
theorem step_cases (s t : State) (h : step s = .next t) :
    (∃ rest, engineMoves s rest ∧ engineTurn { s with agenda := rest } = .next t) ∨
    (∃ off rest, s.agenda = .read off 4 :: rest ∧ off % 4 = 0 ∧ off < 512 ∧ s.rst = false ∧
      t = { s with agenda := rest, rdata := regRead s (regAt off) }) ∨
    (∃ off v rest, s.agenda = .write off 4 v :: rest ∧ off % 4 = 0 ∧ off < 512 ∧ s.rst = false ∧
      t = regWrite { s with agenda := rest } v (regAt off)) ∨
    (∃ n rest, s.agenda = .timeIn n :: rest ∧ t = { s with agenda := rest, timeIn := n }) ∨
    (∃ b rest, s.agenda = .rst b :: rest ∧ t = driveRst { s with agenda := rest } b) := by
  cases ha : s.agenda with
  | nil =>
    have hm : engineMoves s [] := .inl ⟨ha, rfl⟩
    exact .inl ⟨[], hm, (step_engine s [] hm).symm.trans h⟩
  | cons e rest =>
    cases e with
    | engine =>
      have hm : engineMoves s rest := .inr ha
      exact .inl ⟨rest, hm, (step_engine s rest hm).symm.trans h⟩
    | read off size =>
      have e : step s = hostAccess { s with agenda := rest } off size
          (fun r => { s with agenda := rest, rdata := regRead { s with agenda := rest } r }) := by
        unfold step
        rw [ha]
        rfl
      rw [e] at h
      rcases hostAccess_cases { s with agenda := rest } off size
          (fun r => { s with agenda := rest, rdata := regRead { s with agenda := rest } r }) with
        ⟨_, e⟩ | ⟨_, _, _, e⟩ | ⟨_, _, _, _, e⟩ | ⟨rfl, h4, hw, hr, _⟩
      · simp [e] at h
      · simp [e] at h
      · simp [e] at h
      · have hs := step_read s rest off ha h4 hw hr
        rw [e] at hs
        rw [h] at hs
        exact .inr (.inl ⟨off, rest, rfl, h4, hw, hr, by simpa using hs⟩)
    | write off size v =>
      have e : step s = hostAccess { s with agenda := rest } off size
          (fun r => regWrite { s with agenda := rest } v r) := by
        unfold step
        rw [ha]
        rfl
      rw [e] at h
      rcases hostAccess_cases { s with agenda := rest } off size
          (fun r => regWrite { s with agenda := rest } v r) with
        ⟨_, e⟩ | ⟨_, _, _, e⟩ | ⟨_, _, _, _, e⟩ | ⟨rfl, h4, hw, hr, e⟩
      · simp [e] at h
      · simp [e] at h
      · simp [e] at h
      · rw [e] at h
        exact .inr (.inr (.inl ⟨off, v, rest, rfl, h4, hw, hr, by simpa using h.symm⟩))
    | timeIn n =>
      have e : step s = .next { s with agenda := rest, timeIn := n } := by
        unfold step
        rw [ha]
        rfl
      rw [e] at h
      exact .inr (.inr (.inr (.inl ⟨n, rest, rfl, by simpa using h.symm⟩)))
    | rst b =>
      have e : step s = .next (driveRst { s with agenda := rest } b) := by
        unfold step
        rw [ha]
        rfl
      rw [e] at h
      exact .inr (.inr (.inr (.inr ⟨b, rest, rfl, by simpa using h.symm⟩)))

/-- What a write can do: BUSYERR while busy, and while idle acceptance, an acknowledgement, or one register. -/
theorem regWrite_cases (s : State) (v : Word) (r : Reg) :
    (s.busy = true ∧ regWrite s v r = { s with busyErr := true }) ∨
    (s.busy = false ∧
      ((r = .cmd ∧ regWrite s v r = s.accept v) ∨
        (r = .status ∧ regWrite s v r = s.acknowledge v) ∨
        (r = .ie ∧ regWrite s v r = { s with ie := v.extractLsb' 0 2 }) ∨
        (r = .cfg ∧ cfgLegal v = true ∧ regWrite s v r = { s with cfg := cfgOfWord v }) ∨
        (r = .period ∧ v ≠ 0#32 ∧ regWrite s v r = { s with period := v }) ∨
        ((r = .cfg ∧ cfgLegal v = false ∨ r = .period ∧ v = 0#32) ∧ regWrite s v r = { s with cfgRej := true }) ∨
        (r = .dataLo ∧ regWrite s v r = { s with dataLo := v }) ∨
        (r = .dataHi ∧ regWrite s v r = { s with dataHi := v }) ∨
        (r = .candLen ∧ regWrite s v r = { s with candLen := v.extractLsb' 0 8 }) ∨
        (∃ k, r = .cand k ∧ regWrite s v r = { s with cand := setWord s.cand k.val v }) ∨
        (r = .keylen ∧ regWrite s v r = { s with keylen := v.extractLsb' 0 8 }) ∨
        (∃ k, r = .keyw k ∧ regWrite s v r = { s with stage := setWord s.stage k.val v }) ∨
        regWrite s v r = s)) := by
  rcases Bool.eq_false_or_eq_true s.busy with hb | hb
  · exact .inl ⟨hb, regWrite_busy s v r hb⟩
  · refine .inr ⟨hb, ?_⟩
    rw [regWrite_idle s v r hb]
    cases r with
    | cfg =>
      rcases Bool.eq_false_or_eq_true (cfgLegal v) with hc | hc
      · simp [writeIdle, writeCfg, hc]
      · simp [writeIdle, writeCfg, hc]
    | period =>
      by_cases hv : v = 0#32
      · simp [writeIdle, writePeriod, hv]
      · simp [writeIdle, writePeriod, hv]
    | _ => simp [writeIdle]

/-- What a change of `rst` can do: nothing on a pin already low, or reset the block. -/
theorem driveRst_cases (s : State) (b : Bool) :
    (b = false ∧ s.rst = false ∧ driveRst s b = s) ∨
    ((b = true ∨ s.rst = true) ∧ driveRst s b = { s.resetBlock with rst := b }) := by
  rcases Bool.eq_false_or_eq_true s.rst with hr | hr <;> cases b <;> simp [driveRst, hr]

/-! ### Runs -/

theorem runSteps_zero (s : State) : runSteps 0 s = .next s := rfl

/-- A run is its first step and the run from there. -/
theorem runSteps_succ (s : State) (k : Nat) : runSteps (k + 1) s =
    match step s with
    | .next t => runSteps k t
    | .fault r => .fault r
    | .refused r => .refused r := by
  have e : Sys2Proof.core.step s = step s := rfl
  simp only [runSteps, Host.Core.run, e]
  cases step s <;> rfl

theorem runSteps_succ_next (s t : State) (k : Nat) (h : step s = .next t) : runSteps (k + 1) s = runSteps k t := by
  rw [runSteps_succ, h]

end Sys2Proof.Machine
end

