-- ==== Sys2Proof/Laws/Functions.lean ====
section
/-! SUPPORT. One lemma for each shared function of the commands: time slice, data operand, hash sizes, comparator,
window. -/
namespace Sys2Proof.Machine

/-! ### Counter frontend -/

/-- The quotient is exact and never wraps (41_counter.md R141). -/
theorem timeslice_toNat (s : State) (ts : DWord) : (timeslice s ts).toNat = ts.toNat / s.period.toNat := by
  have h := ts.isLt
  have h' := Nat.div_le_self ts.toNat s.period.toNat
  rw [timeslice, BitVec.toNat_ofNat]
  exact Nat.mod_eq_of_lt (Nat.lt_of_le_of_lt h' h)

@[simp] theorem resolveData_false (s : State) : resolveData s false = s.data := rfl

theorem resolveData_hotp (s : State) (h : s.cfg.mode = .hotp) : resolveData s true = 0#64 := by
  simp [resolveData, h]

theorem resolveData_totp (s : State) (h : s.cfg.mode = .totp) : resolveData s true = s.nowLatch := by
  simp [resolveData, h]

theorem resolveCounter_hotp (s : State) (dflt : Bool) (h : s.cfg.mode = .hotp) :
    resolveCounter s dflt = resolveData s dflt := by
  simp [resolveCounter, h]

theorem resolveCounter_totp (s : State) (dflt : Bool) (h : s.cfg.mode = .totp) :
    resolveCounter s dflt = timeslice s (resolveData s dflt) := by
  simp [resolveCounter, h]

/-! ### Hash sizes -/

theorem Sha1Words.bytes_length (h : Sha1Words) : h.bytes.length = 20 := by
  simp [Sha1Words.bytes]

theorem Sha2Words.bytes_length {w : Nat} (h : Sha2Words w) (n : Nat) : (h.bytes n).length = 8 * n := by
  simp only [Sha2Words.bytes, List.length_append, serBe_length]
  omega

theorem pad_length (b f : Nat) (m : List Byte) : (pad b f m).length = m.length + 1 + padZeros b f m.length + f := by
  simp only [pad, List.length_append, List.length_cons, List.length_nil, List.length_replicate, serBe_length]

theorem sha1Extend_length (n : Nat) (l : List Word) : (sha1Extend n l).length = l.length + n := by
  induction n generalizing l with
  | zero => rfl
  | succ n ih =>
    rw [sha1Extend, ih, List.length_cons]
    omega

theorem sha2Extend_length {w : Nat} (g0 g1 : BitVec w → BitVec w) (n : Nat) (l : List (BitVec w)) :
    (sha2Extend g0 g1 n l).length = l.length + n := by
  induction n generalizing l with
  | zero => rfl
  | succ n ih =>
    rw [sha2Extend, ih, List.length_cons]
    omega

/-- The words a schedule already has stay, behind the new ones (42_sha.md R166). -/
theorem sha1Extend_suffix (n : Nat) (l : List Word) : ∃ p, sha1Extend n l = p ++ l ∧ p.length = n := by
  induction n generalizing l with
  | zero => exact ⟨[], rfl, rfl⟩
  | succ n ih =>
    obtain ⟨p, hp, hl⟩ := ih _
    exact ⟨p ++ [_], by rw [sha1Extend, hp, List.append_assoc]; rfl, by simp [hl]⟩

theorem sha2Extend_suffix {w : Nat} (g0 g1 : BitVec w → BitVec w) (n : Nat) (l : List (BitVec w)) :
    ∃ p, sha2Extend g0 g1 n l = p ++ l ∧ p.length = n := by
  induction n generalizing l with
  | zero => exact ⟨[], rfl, rfl⟩
  | succ n ih =>
    obtain ⟨p, hp, hl⟩ := ih _
    exact ⟨p ++ [_], by rw [sha2Extend, hp, List.append_assoc]; rfl, by simp [hl]⟩

/-! ### Keyed hash -/

/-- A key of at most one block is padded as it is (43_hmac.md R201). -/
theorem hmacKeyBlock_of_le (alg : Alg) (key : List Byte) (h : key.length ≤ blockSize alg) :
    hmacKeyBlock alg key = key ++ List.replicate (blockSize alg - key.length) 0x00#8 := by
  rw [hmacKeyBlock, if_neg (Nat.not_lt.mpr h)]

/-- A longer key is hashed first, then padded (43_hmac.md R201). -/
theorem hmacKeyBlock_of_lt (alg : Alg) (key : List Byte) (h : blockSize alg < key.length) :
    hmacKeyBlock alg key =
      hashOf alg key ++ List.replicate (blockSize alg - (hashOf alg key).length) 0x00#8 := by
  rw [hmacKeyBlock, if_pos h]

/-! ### Code -/

@[simp] theorem fmtDec_length (v digits : Nat) : (fmtDec v digits).length = digits := by
  simp [fmtDec]

theorem fmtDec_getElem? (v digits j : Nat) (h : j < digits) :
    (fmtDec v digits)[j]? = some (BitVec.ofNat 8 (0x30 + v / 10 ^ (digits - 1 - j) % 10)) := by
  simp [fmtDec, h]

@[simp] theorem otp_snd_length (alg : Alg) (key : List Byte) (digits : Nat) (c : DWord) :
    (otp alg key digits c).2.length = digits := by
  simp [otp]

/-! ### Comparator and window -/

/-- An accumulator of ORs is zero exactly when everything ORed into it is (45_verify.md R241). -/
theorem foldl_or_eq_zero (f : Nat → Byte) (l : List Nat) (a : Byte) :
    l.foldl (fun acc j => acc ||| f j) a = 0#8 ↔ a = 0#8 ∧ ∀ j ∈ l, f j = 0#8 := by
  induction l generalizing a with
  | nil => simp
  | cons x l ih =>
    have h : a ||| f x = 0#8 ↔ a = 0#8 ∧ f x = 0#8 := by
      constructor
      · intro h
        constructor <;>
        · apply BitVec.eq_of_getLsbD_eq
          intro i hi
          have := congrArg (fun v => v.getLsbD i) h
          simp only [BitVec.getLsbD_or, BitVec.getLsbD_zero, Bool.or_eq_false_iff] at this
          simp [this]
      · rintro ⟨rfl, h⟩
        simp [h]
    simp only [List.foldl_cons, ih, h, List.mem_cons, forall_eq_or_imp, and_assoc]

/-- The comparator's two conditions, before they are read as string equality (45_verify.md R241). -/
theorem ctEqual_iff (s : State) (str : List Byte) (n : Nat) :
    ctEqual s str n = true ↔
      s.candLen = BitVec.ofNat 8 n ∧ ∀ j, j < n → str.getD j 0#8 = s.cand.toList.getD j 0#8 := by
  simp only [ctEqual, beq_iff_eq]
  rw [foldl_or_eq_zero]
  simp [BitVec.xor_eq_zero_iff]

/-- The counters of the window are those within ADJ of the slice that are counters at all (45_verify.md R244). -/
theorem mem_windowCounters (t c : DWord) (adj : Nat) :
    c ∈ windowCounters t adj ↔
      ∃ i : Int, -(adj : Int) ≤ i ∧ i ≤ (adj : Int) ∧ (c.toNat : Int) = (t.toNat : Int) + i := by
  simp only [windowCounters, List.mem_filterMap, List.mem_range, Config.ctrMax]
  constructor
  · rintro ⟨k, hk, h⟩
    split at h
    · rename_i hc
      injection h with h
      refine ⟨(k : Int) - adj, by omega, by omega, ?_⟩
      rw [← h, BitVec.toNat_ofInt]
      omega
    · cases h
  · rintro ⟨i, h1, h2, h3⟩
    have hc := c.isLt
    refine ⟨(i + adj).toNat, by omega, ?_⟩
    have e : (t.toNat : Int) + (((i + adj).toNat : Int) - adj) = c.toNat := by omega
    rw [e]
    have hcond : (0 : Int) ≤ c.toNat ∧ (c.toNat : Int) ≤ ((2 ^ 64 - 1 : Nat) : Int) := by omega
    rw [if_pos hcond]
    simp

/-- The ORed window is true exactly when some counter of it matches (45_verify.md R244 item 3). -/
theorem foldl_or_eq_any (l : List DWord) (f : DWord → Bool) (m : Bool) :
    l.foldl (fun m c => m || f c) m = (m || l.any f) := by
  induction l generalizing m with
  | nil => simp
  | cons x l ih => simp [ih, Bool.or_assoc]

theorem verdict_hotp (s : State) (key : List Byte) (dflt : Bool) (h : s.cfg.mode = .hotp) :
    verdict s key dflt = candidateMatches s key (resolveData s dflt) := by
  simp [verdict, h]

theorem verdict_totp (s : State) (key : List Byte) (dflt : Bool) (h : s.cfg.mode = .totp) :
    verdict s key dflt =
      (windowCounters (timeslice s (resolveData s dflt)) s.cfg.adj.toNat).any (candidateMatches s key) := by
  simp [verdict, h, foldl_or_eq_any]

end Sys2Proof.Machine
end

