-- ==== Sys2Proof/Laws/PerInstr.lean ====
section
/-! SUPPORT. Statements made for every command, one lemma per constructor: the fields of its word (30_encoding.md R91 to
R93). -/

/-- The word of a command matches its row of the table of 30_encoding.md R93 (`match` under `mask` 0xFFFFFEFF), has Z = 0,
and decodes to no other command. -/
def Sys2Proof.Laws.EncodingFields.Statement (i : Sys2Proof.Instr) : Prop :=
  (Sys2Proof.encode i &&& 0xFFFFFEFF#32 =
    match i with
    | .keyset _ => 0x00000001#32
    | .slice _ => 0x00000002#32
    | .hmac _ => 0x00000003#32
    | .code _ => 0x00000004#32
    | .verify _ => 0x00000005#32) ∧
  Sys2Proof.zField (Sys2Proof.encode i) = 0#23 ∧ Sys2Proof.wordWellFormed (Sys2Proof.encode i) = true ∧
  Sys2Proof.decodeTableWord 32 (Sys2Proof.encode i).toNat = some i

theorem Sys2Proof.Laws.EncodingFields.keyset (gen : Bool) :
    Sys2Proof.Laws.EncodingFields.Statement (.keyset gen) := by
  cases gen <;> exact ⟨by decide, by decide, by decide, by decide⟩

theorem Sys2Proof.Laws.EncodingFields.slice (dflt : Bool) :
    Sys2Proof.Laws.EncodingFields.Statement (.slice dflt) := by
  cases dflt <;> exact ⟨by decide, by decide, by decide, by decide⟩

theorem Sys2Proof.Laws.EncodingFields.hmac (dflt : Bool) :
    Sys2Proof.Laws.EncodingFields.Statement (.hmac dflt) := by
  cases dflt <;> exact ⟨by decide, by decide, by decide, by decide⟩

theorem Sys2Proof.Laws.EncodingFields.code (dflt : Bool) :
    Sys2Proof.Laws.EncodingFields.Statement (.code dflt) := by
  cases dflt <;> exact ⟨by decide, by decide, by decide, by decide⟩

theorem Sys2Proof.Laws.EncodingFields.verify (dflt : Bool) :
    Sys2Proof.Laws.EncodingFields.Statement (.verify dflt) := by
  cases dflt <;> exact ⟨by decide, by decide, by decide, by decide⟩
end

