-- ==== Sys2Proof/Tests/Slice0.lean ====
section
/-! SUPPORT. Tests on values written in spec/ (95_test_vectors.md and the encoding table of 30_encoding.md), and a
witness for the hypotheses of each statement. -/
open Sys2Proof Sys2Proof.Machine

namespace Sys2Proof.Tests

/-! ### Well-formed words (30_encoding.md R95): each check refuses an ill-formed word -/

theorem test_opcode_zero_is_refused : opcodeAssigned 0x00000000#32 = false ∧ wordWellFormed 0x00000000#32 = false := by
  decide

theorem test_opcode_six_is_refused : opcodeAssigned 0x00000006#32 = false ∧ wordWellFormed 0x00000006#32 = false := by
  decide

theorem test_reserved_bit_is_refused : reservedClear 0x00000204#32 = false ∧ wordWellFormed 0x00000204#32 = false := by
  decide

theorem test_every_command_term_is_well_formed (i : Instr) : i.wellFormed = true := by
  cases i <;> rfl

/-! ### Decoding, words written out bit by bit from 30_encoding.md R91 to R93 -/

theorem test_decode_keyset : decode 0b00000000000000000000000000000001#32 = .ok (.keyset false) ∧
    decode 0b00000000000000000000000100000001#32 = .ok (.keyset true) := ⟨rfl, rfl⟩

theorem test_decode_slice : decode 0b00000000000000000000000000000010#32 = .ok (.slice false) ∧
    decode 0b00000000000000000000000100000010#32 = .ok (.slice true) := ⟨rfl, rfl⟩

theorem test_decode_hmac : decode 0b00000000000000000000000000000011#32 = .ok (.hmac false) ∧
    decode 0b00000000000000000000000100000011#32 = .ok (.hmac true) := ⟨rfl, rfl⟩

theorem test_decode_code : decode 0b00000000000000000000000000000100#32 = .ok (.code false) ∧
    decode 0b00000000000000000000000100000100#32 = .ok (.code true) := ⟨rfl, rfl⟩

theorem test_decode_verify : decode 0b00000000000000000000000000000101#32 = .ok (.verify false) ∧
    decode 0b00000000000000000000000100000101#32 = .ok (.verify true) := ⟨rfl, rfl⟩

/-- The two reasons of R95. -/
theorem test_decode_illegal : decode 0x00000006#32 = .error .unassignedOpcode ∧
    decode 0x00000201#32 = .error .reservedBitSet := ⟨rfl, rfl⟩

/-! ### States for tests -/

/-- Bytes of a string of ASCII characters. -/
def ascii (l : List Char) : List Byte := l.map fun c => BitVec.ofNat 8 c.toNat

/-- The secret of RFC 4226 (95_test_vectors.md section 2). -/
def rfcSecret : List Byte := ascii ['1', '2', '3', '4', '5', '6', '7', '8', '9', '0', '1', '2', '3', '4', '5', '6', '7', '8',
  '9', '0']

/-- Right after reset, with events to come. -/
def idleThen (es : List Event) : State := { State.reset with agenda := es }

/-- The word `w` accepted right after reset, with events to come. -/
def busyThen (w : Word) (es : List Event) : State := { State.accept State.reset w with agenda := es }

/-- The reset state with the secret of RFC 4226. -/
def keyed : State := { State.reset with secret := some rfcSecret }

/-- A check of a next state. -/
def nextIs (o : Host.Outcome State Fault Refusal) (p : State → Bool) : Bool :=
  match o with
  | .next t => p t
  | .fault _ => false
  | .refused _ => false

/-! ### The shared functions, on the vectors of 95_test_vectors.md -/

/-- Section 3.1, SHA-1 of "abc". -/
theorem test_sha1_abc : hashOf .sha1 [0x61, 0x62, 0x63] =
    [0xa9, 0x99, 0x3e, 0x36, 0x47, 0x06, 0x81, 0x6a, 0xba, 0x3e, 0x25, 0x71, 0x78, 0x50, 0xc2, 0x6c, 0x9c, 0xd0, 0xd8,
      0x9d] := by
  decide +kernel

/-- Section 3.1, the first and the last word of SHA-256 of "abc". -/
theorem test_sha256_abc : be32 (hashOf .sha256 [0x61, 0x62, 0x63]) 0 = 0xba7816bf#32 ∧
    be32 (hashOf .sha256 [0x61, 0x62, 0x63]) 28 = 0xf20015ad#32 := by
  decide +kernel

/-- Section 3.1, the first and the last word of SHA-512 of "abc". -/
theorem test_sha512_abc : be32 (hashOf .sha512 [0x61, 0x62, 0x63]) 0 = 0xddaf35a1#32 ∧
    be32 (hashOf .sha512 [0x61, 0x62, 0x63]) 60 = 0xa54ca49f#32 := by
  decide +kernel

/-- Section 3.3, row O21's integer with a leading zero at ten digits. -/
theorem test_format_keeps_leading_zeros : fmtDec (codeValue 369342147 10) 10 =
    ascii ['0', '3', '6', '9', '3', '4', '2', '1', '4', '7'] := by
  decide

/-! ### One step of each command -/

/-- Section 3.5, row K16: KEYLEN declares 4 of the staged bytes. -/
theorem test_keyset_stores_a_prefix :
    nextIs (exec (.keyset false) { State.reset with
      stage := setWord (setWord (zeroBytes 128) 0 0x31323334#32) 1 0x35363738#32, keylen := 4#8 }) (fun t =>
        decide (t.secret = some [0x31#8, 0x32#8, 0x33#8, 0x34#8]) && t.done && !t.err && t.keylen == 0#8) = true := by
  decide +kernel

/-- Section 3.5, rows K3 and K4: a generated secret has 16 bytes or is refused with code 3. -/
theorem test_keyset_generated_needs_sixteen_bytes :
    nextIs (exec (.keyset true) { State.reset with keylen := 16#8 }) (fun t => t.secret.isSome && !t.err) = true ∧
      nextIs (exec (.keyset true) { State.reset with keylen := 15#8 })
        (fun t => !t.secret.isSome && t.err && t.errcode == 3#8) = true := by
  decide +kernel

/-- Section 3.8, row TS12: SLICE.D in HOTP mode divides the latched time. -/
theorem test_slice_default_in_hotp :
    nextIs (exec (.slice true) { State.reset with dataLo := 12345#32, nowLatch := 1234567890#64 })
      (fun t => t.ctrHi == 0#32 && t.ctrLo == 0x0273EF07#32 && !t.err) = true := by
  decide +kernel

/-- Section 3.8, row TS9: the division is exact over 64 bits. -/
theorem test_slice_large :
    nextIs (exec (.slice false) { State.reset with
      dataLo := 0xFFFFFFFF#32, dataHi := 0xFFFFFFFF#32, period := 0xFFFFFFFF#32 })
      (fun t => t.ctrHi == 1#32 && t.ctrLo == 1#32) = true := by
  decide +kernel

/-- Section 3.2, row M2: the digest words of counter 1, and the untouched tail. -/
theorem test_hmac_counter_one :
    nextIs (exec (.hmac false) { keyed with dataLo := 1#32 })
      (fun t => wordOf t.digest 0 == 0x75a48a19#32 && wordOf t.digest 4 == 0x7a2d33ab#32 && wordOf t.digest 5 == 0#32
        && t.ctrLo == 1#32) = true := by
  decide +kernel

/-- Section 3.2, row M10: a secret of 65 bytes under SHA-1 is hashed first. -/
theorem test_hmac_long_key :
    nextIs (exec (.hmac false) { State.reset with secret := some ((List.range 65).map (BitVec.ofNat 8)) })
      (fun t => wordOf t.digest 0 == 0xad4e7afa#32 && wordOf t.digest 4 == 0x312d087a#32) = true := by
  decide +kernel

/-- Section 2, counter 0: "755224". -/
theorem test_code_counter_zero :
    nextIs (exec (.code true) keyed)
      (fun t => t.codeVal == 755224#32 && wordOf t.code 0 == 0x37353532#32 && wordOf t.code 1 == 0x32340000#32) = true := by
  decide +kernel

/-- Section 3.7, row V2 with ADJ = 0, the default time and eight digits: time 59 is slice 1, "94287082". -/
theorem test_verify_accepts_time_59 :
    nextIs (exec (.verify true) { keyed with
      cfg := { mode := .totp, alg := .sha1, digits := 8#4, adj := 0#8 }, nowLatch := 59#64, candLen := 8#8
      cand := setWord (setWord (zeroBytes 12) 0 0x39343238#32) 1 0x37303832#32 })
      (fun t => t.matched && t.done && !t.err && t.ctrLo == 0#32) = true := by
  decide +kernel

/-- Section 3.7, row V7: counter 6 has another code than "254676", the one of counter 5. -/
theorem test_verify_rejects_another_counter :
    nextIs (exec (.verify false) { keyed with
      dataLo := 6#32, candLen := 6#8, cand := setWord (setWord (zeroBytes 12) 0 0x32353436#32) 1 0x37360000#32 })
      (fun t => !t.matched && t.done) = true := by
  decide +kernel

/-- A placed command is the very next step: SLICE of zero completes, HMAC without a secret fails with code 1. -/
theorem test_placed_command_runs_next :
    nextIs (step (State.reset.withFetchWord 32 0x002)) (fun t => t.done && !t.err && !t.busy) = true ∧
      nextIs (step (State.reset.withFetchWord 32 0x103)) (fun t => t.done && t.err && t.errcode == 1#8) = true := by
  decide +kernel

/-! ### Witnesses: states and operands that meet the hypotheses of each statement -/

theorem witness_command_words : decode 0x00000105#32 = .ok (.verify true) ∧ (0x00000105#32 : Word) ∈ tenWords := by
  decide

/-- Both ways the engine gets its turn, for StepRunsTheLatchedCommand and EveryCompletionEndsIdleAndDone. -/
theorem witness_engine_turn (w : Word) :
    engineMoves (busyThen w []) [] ∧ engineMoves (busyThen w [.engine, .timeIn 1#64]) [.timeIn 1#64] ∧
      (busyThen w []).rst = false ∧ (busyThen w []).busy = true ∧ (busyThen w []).cmdLatch = w :=
  ⟨.inl ⟨rfl, rfl⟩, .inr rfl, rfl, rfl, rfl⟩

/-- Boundary words that are no command: opcode 0 and 6, the lowest and the highest bit of Z. -/
theorem witness_illegal_words : (0x00000000#32 : Word) ∉ tenWords ∧ (0x00000006#32 : Word) ∉ tenWords ∧
    (0x00000201#32 : Word) ∉ tenWords ∧ (0x80000001#32 : Word) ∉ tenWords := by
  decide

/-- Acceptance, legal and illegal, then the engine's turn. -/
theorem witness_acceptance (w : Word) : (idleThen [.write 0x004 4 w, .engine]).agenda = [.write 0x004 4 w, .engine] ∧
    (idleThen [.write 0x004 4 w, .engine]).rst = false ∧ (idleThen [.write 0x004 4 w, .engine]).busy = false :=
  ⟨rfl, rfl, rfl⟩

/-- The first and the last word of the window, read or written while busy. -/
theorem witness_access_while_busy : inWindow 0 ∧ inWindow 508 ∧
    (busyThen 1#32 [.write 508 4 7#32]).agenda = [.write 508 4 7#32] ∧ (busyThen 1#32 [.read 0 4]).agenda = [.read 0 4] ∧
    (busyThen 1#32 []).busy = true ∧ (busyThen 1#32 []).rst = false :=
  ⟨⟨rfl, by decide⟩, ⟨rfl, by decide⟩, rfl, rfl, rfl, rfl⟩

/-- A write while idle, to each of the offsets the statements about writes name. -/
theorem witness_idle_write (off : Nat) (v : Word) : (idleThen [.write off 4 v]).agenda = [.write off 4 v] ∧
    (idleThen [.write off 4 v]).rst = false ∧ (idleThen [.write off 4 v]).busy = false :=
  ⟨rfl, rfl, rfl⟩

/-- The write-only offsets at their ends, and the two others next to them. -/
theorem witness_write_only_offsets : (0x100 ≤ 0x100 ∧ 0x100 ≤ 0x17C) ∧ (0x100 ≤ 0x17C ∧ 0x17C ≤ 0x17C) ∧
    inWindow 0x100 ∧ inWindow 0x17C ∧ inWindow 0x004 :=
  ⟨by decide, by decide, ⟨rfl, by decide⟩, ⟨rfl, by decide⟩, ⟨rfl, by decide⟩⟩

/-- The least and the greatest legal CFG value, and one illegal value for each clause. -/
theorem witness_cfg_values : legalCfgValue 0x00000010#32 ∧ legalCfgValue 0x0000FFA5#32 ∧
    ¬ legalCfgValue 0x00000066#32 ∧ ¬ legalCfgValue 0x00000000#32 ∧ ¬ legalCfgValue 0x000000B0#32 ∧
    ¬ legalCfgValue 0x00000068#32 ∧ ¬ legalCfgValue 0x00010060#32 := by
  unfold legalCfgValue
  decide

/-- Each end of each range of read-only and of reserved offsets; no offset is both. -/
theorem witness_offset_classes : (readOnlyOffset 0x000 ∧ readOnlyOffset 0x00C ∧ readOnlyOffset 0x040 ∧
      readOnlyOffset 0x044 ∧ readOnlyOffset 0x048 ∧ readOnlyOffset 0x050 ∧ readOnlyOffset 0x058 ∧ readOnlyOffset 0x080 ∧
      readOnlyOffset 0x0BC) ∧
    (reservedOffset 0x01C ∧ reservedOffset 0x02C ∧ reservedOffset 0x03C ∧ reservedOffset 0x04C ∧ reservedOffset 0x05C ∧
      reservedOffset 0x064 ∧ reservedOffset 0x07C ∧ reservedOffset 0x0C0 ∧ reservedOffset 0x0FC ∧ reservedOffset 0x180 ∧
      reservedOffset 0x1FC) ∧
    ∀ off, ¬ (readOnlyOffset off ∧ reservedOffset off) := by
  unfold readOnlyOffset reservedOffset
  exact ⟨by norm_num, by norm_num, fun off => by omega⟩

/-- One access for each stop: a half word, a misaligned word, the first word past the window, and the last word of the
window in reset. -/
theorem witness_stops : (2 ≠ 4 ∨ 0 % 4 ≠ 0) ∧ (4 ≠ 4 ∨ 2 % 4 ≠ 0) ∧ 512 % 4 = 0 ∧ inWindow 508 ∧
    ({ idleThen [.read 508 4] with rst := true } : State).rst = true ∧ (idleThen [.read 0 2]).agenda = [.read 0 2] ∧
    (idleThen [.write 512 4 0#32]).agenda = [.write 512 4 0#32] :=
  ⟨by decide, by decide, rfl, ⟨rfl, by decide⟩, rfl, rfl, rfl⟩

/-- An idle engine at its turn, and a change of the time input. -/
theorem witness_idle_engine : engineMoves (idleThen []) [] ∧ engineMoves (idleThen [.engine]) [] ∧
    (idleThen []).busy = false ∧ (idleThen [.timeIn 5#64]).agenda = [.timeIn 5#64] :=
  ⟨.inl ⟨rfl, rfl⟩, .inr rfl, rfl, rfl⟩

/-- Asserting `rst` while a command is in progress, and releasing it. -/
theorem witness_reset : (busyThen 4#32 [.rst true]).agenda = [.rst true] ∧
    ({ idleThen [.rst false] with rst := true } : State).rst = true :=
  ⟨rfl, rfl⟩

/-- The legal lengths at their ends, 1 and 128, and 16 for a generated secret; and the refused ones next to them. -/
theorem witness_key_lengths : (¬ badKeyLength false 1 ∧ ¬ badKeyLength false 128 ∧ ¬ badKeyLength true 16 ∧
      ¬ badKeyLength true 128) ∧
    (badKeyLength false 0 ∧ badKeyLength false 129 ∧ badKeyLength false 255 ∧ badKeyLength true 15) ∧
    ({ State.reset with keylen := 16#8 } : State).keylen.toNat = 16 := by
  unfold badKeyLength
  decide

/-- Periods at the low end, and a boundary of a period interval. -/
theorem witness_period : 1 ≤ State.reset.period.toNat ∧ ({ State.reset with period := 1#32 } : State).period.toNat = 1 ∧
    1 ≤ 1 ∧ 1 * State.reset.period.toNat < 2 ^ 64 := by
  decide

/-- A stored secret, in both modes, with one and with ten digits, for HMAC, CODE and VERIFY. -/
theorem witness_keyed : keyed.secret = some rfcSecret ∧ keyed.cfg.mode = .hotp ∧ keyed.cfg.digits.toNat ≤ 10 ∧
    ({ keyed with cfg := { mode := .totp, alg := .sha512, digits := 10#4, adj := 255#8 } } : State).cfg.mode = .totp ∧
    ({ keyed with cfg := { mode := .totp, alg := .sha512, digits := 10#4, adj := 255#8 } } : State).cfg.digits.toNat ≤ 10 :=
  ⟨rfl, rfl, by decide, rfl, by decide⟩

/-- No secret stored, for each of the three commands that read it. -/
theorem witness_no_secret : State.reset.secret = none ∧ (Instr.hmac false).readsSecret = true ∧
    (Instr.code true).readsSecret = true ∧ (Instr.verify false).readsSecret = true :=
  ⟨rfl, rfl, rfl, rfl⟩

/-- CodeWithinTheWindowIsAccepted, at both ends of the window and in its middle: slice 1, counters 0, 1 and 2. -/
theorem witness_window (k : Int) (h : k = -1 ∨ k = 0 ∨ k = 1) :
    ∃ g g' v : State, g.secret = some rfcSecret ∧ g.cfg.mode = .hotp ∧ exec (.code false) g = .next g' ∧
      v.secret = some rfcSecret ∧ v.cfg.mode = .totp ∧ v.cfg.alg = g.cfg.alg ∧ v.cfg.digits = g.cfg.digits ∧
      v.cfg.digits.toNat ≤ 10 ∧ v.cand = g'.code ∧ v.candLen.toNat = v.cfg.digits.toNat ∧
      -(v.cfg.adj.toNat : Int) ≤ k ∧ k ≤ (v.cfg.adj.toNat : Int) ∧
      (dataNumber g : Int) = ((if true then v.nowLatch.toNat else dataNumber v) / v.period.toNat : Nat) + k := by
  have hn : ∃ n : Word, (n.toNat : Int) = 1 + k := by
    rcases h with rfl | rfl | rfl
    · exact ⟨0#32, rfl⟩
    · exact ⟨1#32, rfl⟩
    · exact ⟨2#32, rfl⟩
  obtain ⟨n, hn⟩ := hn
  obtain ⟨g', hg⟩ := exec_next (.code false) { keyed with dataLo := n }
  refine ⟨{ keyed with dataLo := n }, g', { keyed with
    cfg := { mode := .totp, alg := .sha1, digits := 6#4, adj := 1#8 }, nowLatch := 59#64, candLen := 6#8
    cand := g'.code }, rfl, rfl, hg, rfl, rfl, rfl, rfl, ?_, rfl, rfl, ?_, ?_, ?_⟩
  · show (6#4).toNat ≤ 10
    decide
  · show -(1 : Int) ≤ k
    omega
  · show k ≤ (1 : Int)
    omega
  · show ((0 * 2 ^ 32 + n.toNat : Nat) : Int) = ((59 / 30 : Nat) : Int) + k
    omega

/-- CodeTwiceGivesTheSameCode. -/
theorem witness_code_twice : ∃ s : State, s.agenda = .write 0x004 4 (encode (.code true)) :: .engine ::
      .write 0x004 4 (encode (.code true)) :: .engine :: [] ∧ s.rst = false ∧ s.busy = false ∧ s.secret.isSome = true :=
  ⟨{ keyed with agenda := [.write 0x004 4 (encode (.code true)), .engine, .write 0x004 4 (encode (.code true)), .engine] },
    rfl, rfl, rfl, rfl⟩

/-- Message lengths of PaddingIsMinimal: the inner and the outer message, and long keys at both ends of both ranges. -/
theorem witness_message_lengths : (List.replicate 72 0#8).length = blockSize .sha1 + 8 ∧
    (List.replicate 192 0#8).length = blockSize .sha512 + digestSize .sha512 ∧
    (Alg.sha256 ≠ .sha512 ∧ 65 ≤ (List.replicate 65 0#8).length ∧ (List.replicate 119 0#8).length ≤ 119) ∧
    (120 ≤ (List.replicate 120 0#8).length ∧ (List.replicate 128 0#8).length ≤ 128) := by
  simp [blockSize, digestSize]

/-- A key of a whole block after its zeros, and one with none added. -/
theorem witness_trailing_zeros : rfcSecret.length + 44 ≤ blockSize .sha1 ∧ rfcSecret.length + 108 ≤ blockSize .sha512 ∧
    rfcSecret.length + 0 ≤ blockSize .sha256 := by
  decide

/-- Keys at each end of both cases of R201: a whole block is used as it is, one byte more is hashed first, the longest
storable key is hashed first under SHA-256 and used as it is under SHA-512. -/
theorem witness_key_block_cases : (List.replicate 64 0#8).length ≤ blockSize .sha1 ∧
    blockSize .sha1 < (List.replicate 65 0#8).length ∧ blockSize .sha256 < (List.replicate 128 0#8).length ∧
    (List.replicate 128 0#8).length ≤ blockSize .sha512 ∧ (List.replicate 128 0#8).length ≤ 128 := by
  decide

/-- Schedules as functions of the index. -/
theorem witness_schedules (m : List Byte) : (∃ w : Nat → Word, ∀ t, w t = (sha1Schedule m).getD t 0#32) ∧
    (∃ w : Nat → Word, ∀ t, w t = (sha256Schedule m).getD t 0#32) ∧
    ∃ w : Nat → DWord, ∀ t, w t = (sha512Schedule m).getD t 0#64 :=
  ⟨⟨_, fun _ => rfl⟩, ⟨_, fun _ => rfl⟩, ⟨_, fun _ => rfl⟩⟩

/-- The shortest digest, the largest truncated value, and codes at both ends. -/
theorem witness_code_functions : 20 ≤ (List.replicate 20 0xFF#8).length ∧ 2147483647 < 2 ^ 31 ∧ 0 < 10 ^ 1 ∧
    9999999999 < 10 ^ 10 := by
  decide

/-- Strings of one and of ten characters for the comparator. -/
theorem witness_comparator : 1 ≤ 10 ∧ (ascii ['4']).length = 1 ∧ 10 ≤ 10 ∧ (fmtDec 1284755224 10).length = 10 := by
  decide

/-- A command in progress meets the invariant, so StepKeepsTheInvariant and ErrorCodeTellsTheCause have cases. -/
theorem witness_invariant (w : Word) (es : List Event) : (busyThen w es).Inv where
  digits := by
    show 1 ≤ (6#4).toNat ∧ (6#4).toNat ≤ 10
    decide
  period := by
    show 1 ≤ (30#32).toNat
    decide
  secret := fun _ h => by cases h
  busy := fun _ => ⟨rfl, rfl, rfl, rfl, rfl, rfl, rfl, fun i => zeroBytes_getElem 12 i.val i.isLt,
    fun i => zeroBytes_getElem 64 i.val i.isLt⟩
  errcode := .inl rfl
  code := ⟨0, by decide, fun j => ⟨fun h => by omega, fun _ => zeroBytes_getElem 12 j.val j.isLt⟩⟩
  codeVal := by
    show (0#32).toNat < 2 ^ 31
    decide
  errHasCode := fun h => by cases h
  heldInReset := fun h => by cases h

/-- One completion for each error code of ErrorCodeTellsTheCause, and a successful one; the first three are the failures
of FailingCompletionHasNoOtherEffect too. -/
theorem witness_error_codes :
    (∃ t, step (busyThen 0x00000006#32 []) = .next t ∧ t.errcode = 5#8 ∧ t.err = true) ∧
    (∃ t, step (busyThen 0x00000003#32 []) = .next t ∧ t.errcode = 1#8 ∧ t.err = true) ∧
    (∃ t, step (busyThen 0x00000001#32 []) = .next t ∧ t.errcode = 3#8 ∧ t.err = true) ∧
    (∃ t, step (busyThen 0x00000002#32 []) = .next t ∧ t.errcode = 0#8 ∧ t.err = false) ∧
    (busyThen 0x00000006#32 []).err = false :=
  ⟨⟨_, rfl, rfl, rfl⟩, ⟨_, rfl, rfl, rfl⟩, ⟨_, rfl, rfl, rfl⟩, ⟨_, rfl, rfl, rfl⟩, rfl⟩

/-- The secret changes by KEYSET and by reset. -/
theorem witness_secret_changes :
    (∃ t, step { busyThen 0x00000001#32 [] with keylen := 1#8 } = .next t ∧ t.secret ≠ none) ∧
    ∃ t, step { keyed with agenda := [.rst true] } = .next t ∧ t.secret ≠ keyed.secret :=
  ⟨⟨_, rfl, nofun⟩, ⟨_, rfl, nofun⟩⟩

/-- The latches change by acceptance and by reset. -/
theorem witness_latch_changes :
    (∃ t, step (idleThen [.write 0x004 4 4#32]) = .next t ∧ t.cmdLatch ≠ State.reset.cmdLatch) ∧
    ∃ t, step (busyThen 4#32 [.rst true]) = .next t ∧ t.cmdLatch ≠ (busyThen 4#32 []).cmdLatch :=
  ⟨⟨_, rfl, by decide⟩, ⟨_, rfl, by decide⟩⟩

/-- CFG and PERIOD change by legal writes and by reset. -/
theorem witness_configuration_changes :
    (∃ t, step (idleThen [.write 0x014 4 0x00000181#32]) = .next t ∧ t.cfg ≠ State.reset.cfg) ∧
    (∃ t, step (idleThen [.write 0x018 4 60#32]) = .next t ∧ t.period ≠ State.reset.period) ∧
    ∃ t, step { idleThen [.rst true] with period := 60#32 } = .next t ∧ t.period ≠ 60#32 :=
  ⟨⟨_, rfl, by decide⟩, ⟨_, rfl, by decide⟩, ⟨_, rfl, by decide⟩⟩

/-- MATCH is set by a VERIFY in progress: counter 0 and "755224" (section 3.6, row Q1). -/
theorem witness_match : nextIs (step { busyThen 0x00000105#32 [] with
      secret := some rfcSecret, candLen := 6#8
      cand := setWord (setWord (zeroBytes 12) 0 0x37353532#32) 1 0x32340000#32 }) (fun t => t.matched) = true := by
  decide +kernel

/-- InterruptRisesAndFallsAsSaid: a rise by a completion and one by a write to IE; a value that acknowledges both bits. -/
theorem witness_interrupt :
    (∃ t, step { busyThen 2#32 [] with ie := 1#2 } = .next t ∧ ({ busyThen 2#32 [] with ie := 1#2 } : State).irq = false ∧
      t.irq = true) ∧
    (∃ t, step { idleThen [.write 0x010 4 2#32] with err := true } = .next t ∧
      ({ idleThen [.write 0x010 4 2#32] with err := true } : State).irq = false ∧ t.irq = true) ∧
    (0x00000006#32).getLsbD 1 = true ∧ (0x00000006#32).getLsbD 2 = true :=
  ⟨⟨_, rfl, rfl, rfl⟩, ⟨_, rfl, rfl, rfl⟩, rfl, rfl⟩

/-- The two cases of OnlyKeysetScrubsAndAlwaysDoes, and a command for CommandsNeverWriteOperands. -/
theorem witness_scrub : (∃ gen, decode (busyThen 0x00000101#32 []).cmdLatch = .ok (.keyset gen)) ∧
    (¬ ∃ gen, decode (busyThen 0x00000006#32 []).cmdLatch = .ok (.keyset gen)) ∧
    ∃ t, exec (.slice true) keyed = .next t :=
  ⟨⟨true, rfl⟩, (fun ⟨_, h⟩ => nomatch h), ⟨_, rfl⟩⟩

/-- Accesses and a change of `time_in` while a command is in progress. -/
theorem witness_busy_period : (busyThen 4#32 [.write 0x020 4 9#32, .timeIn 7#64, .read 0x008 4]).busy = true ∧
    (busyThen 4#32 [.write 0x020 4 9#32, .timeIn 7#64, .read 0x008 4]).rst = false ∧
    ∀ e ∈ (busyThen 4#32 [.write 0x020 4 9#32, .timeIn 7#64, .read 0x008 4]).agenda,
      e.legal = true ∧ e.duringBusy = true := by
  refine ⟨rfl, rfl, ?_⟩
  simp only [busyThen]
  decide

/-- Two different secrets that the host cannot tell apart, with an access, a `time_in` change and a reset to come, and
with SLICE in progress. -/
theorem witness_same_to_the_host :
    SameToTheHost { keyed with agenda := [.read 0x008 4, .timeIn 1#64, .rst true] }
      { keyed with secret := some [0x00#8], agenda := [.read 0x008 4, .timeIn 1#64, .rst true] } ∧
    (∀ e ∈ [Event.read 0x008 4, .timeIn 1#64, .rst true], e ≠ .engine) ∧
    SameToTheHost { busyThen 2#32 [] with secret := some rfcSecret } { busyThen 2#32 [] with secret := some [0x00#8] } ∧
    decode (busyThen 2#32 []).cmdLatch = .ok (.slice false) ∧ (Instr.slice false).readsSecret = false :=
  ⟨⟨rfl, rfl⟩, by decide, ⟨rfl, rfl⟩, rfl, rfl⟩

end Sys2Proof.Tests
end

namespace Sys2Proof.Machine

/-! ### The idle engine and the input `time_in` (00_scope.md R6, 10_state.md R39) -/

/-- With no command in progress the engine's turn changes nothing: both cases that act need BUSY. -/
theorem engineTurn_idle (s : State) (h : s.busy = false) : engineTurn s = .next s := by
  rcases engineTurn_cases s with ⟨_, e⟩ | ⟨hb, _⟩ | ⟨hb, _⟩
  · exact e
  · simp [h] at hb
  · simp [h] at hb

/-- An idle engine's step only takes its turn from the agenda. -/
theorem step_engine_idle (s : State) (rest : List Event) (hm : engineMoves s rest) (h : s.busy = false) :
    step s = .next { s with agenda := rest } :=
  (step_engine s rest hm).trans (engineTurn_idle { s with agenda := rest } h)

/-- The step that takes a change of `time_in`. -/
theorem step_timeIn (s : State) (rest : List Event) (t : DWord) (ha : s.agenda = .timeIn t :: rest) :
    step s = .next { s with agenda := rest, timeIn := t } :=
  step_cons s (.timeIn t) rest ha

/-- Settles O21: the idle engine's turn and the step of a `timeIn` event, each by its own rule. -/
theorem idleEngineAndTimeInput : Obligations.IdleEngineAndTimeInput :=
  ⟨step_engine_idle, step_timeIn⟩

end Sys2Proof.Machine

namespace Sys2Proof.Machine

/-! ### What commands and steps leave unchanged -/

/-- A command writes the secret, KEYSET's operands, the status flags of a command and its results, and no other
field. -/
theorem exec_frame (i : Instr) (s t : State) (h : exec i s = .next t) :
    t = { s with
      secret := t.secret, stage := t.stage, keylen := t.keylen, busy := false, done := true, err := t.err
      matched := t.matched, errcode := t.errcode, ctrLo := t.ctrLo, ctrHi := t.ctrHi, codeVal := t.codeVal
      code := t.code, digest := t.digest } := by
  rcases exec_cases i s with ⟨_, _, _, e⟩ | ⟨_, _, _, e⟩ | ⟨_, _, e⟩ | ⟨_, _, e⟩ | ⟨_, _, _, _, _, _, _, _, e⟩ |
    ⟨_, _, _, _, _, _, _, _, e⟩ | ⟨_, _, _, _, _, _, e⟩ <;>
  · cases e.symm.trans h
    rfl

/-- The engine's turn has the frame of the command it completes, if any. -/
theorem engineTurn_frame (s t : State) (h : engineTurn s = .next t) :
    t = { s with
      secret := t.secret, stage := t.stage, keylen := t.keylen, busy := t.busy, done := t.done, err := t.err
      matched := t.matched, errcode := t.errcode, ctrLo := t.ctrLo, ctrHi := t.ctrHi, codeVal := t.codeVal
      code := t.code, digest := t.digest } := by
  rcases engineTurn_cases s with ⟨_, e⟩ | ⟨_, _, i, _, e⟩ | ⟨_, _, _, e⟩
  · cases e.symm.trans h
    rfl
  · have hf := exec_frame i s t (e.symm.trans h)
    have hb : t.busy = false := congrArg State.busy hf
    have hd : t.done = true := congrArg State.done hf
    rw [hb, hd]
    exact hf
  · cases e.symm.trans h
    rfl

/-- Only KEYSET writes the secret and KEYSET's own operands. -/
theorem exec_keeps_secret_of_ne_keyset (i : Instr) (s t : State) (h : exec i s = .next t)
    (hi : ∀ gen, i ≠ .keyset gen) : t.secret = s.secret ∧ t.stage = s.stage ∧ t.keylen = s.keylen := by
  rcases exec_cases i s with ⟨gen, hg, _⟩ | ⟨gen, hg, _⟩ | ⟨_, _, e⟩ | ⟨_, _, e⟩ | ⟨_, _, _, _, _, _, _, _, e⟩ |
    ⟨_, _, _, _, _, _, _, _, e⟩ | ⟨_, _, _, _, _, _, e⟩
  · exact absurd hg (hi gen)
  · exact absurd hg (hi gen)
  all_goals
    cases e.symm.trans h
    exact ⟨rfl, rfl, rfl⟩

/-- Settles O53: the frame of every command, and KEYSET as the only writer of its own operands. -/
theorem commandsNeverWriteOperands : Obligations.CommandsNeverWriteOperands := by
  intro i s t h
  have hk := exec_keeps_secret_of_ne_keyset i s t h
  rw [exec_frame i s t h]
  exact ⟨rfl, rfl, rfl, rfl, rfl, rfl, rfl, rfl, rfl, rfl, rfl, rfl, rfl, rfl, rfl, hk⟩

/-! ### Writes to CFG and PERIOD (10_state.md R30, R31) -/

theorem writeIdle_cfg_of_legal (s : State) (v : Word) (h : cfgLegal v = true) :
    writeIdle s v .cfg = { s with cfg := cfgOfWord v } :=
  if_pos h

theorem writeIdle_cfg_of_illegal (s : State) (v : Word) (h : ¬ cfgLegal v = true) :
    writeIdle s v .cfg = { s with cfgRej := true } :=
  if_neg h

theorem writeIdle_period_of_ne_zero (s : State) (v : Word) (h : v ≠ 0#32) :
    writeIdle s v .period = { s with period := v } :=
  if_pos h

theorem writeIdle_period_zero (s : State) : writeIdle s 0#32 .period = { s with cfgRej := true } := rfl

/-- DIGITS of a written CFG value is its bits 7:4 (10_state.md R30). -/
theorem cfgOfWord_digits_toNat (v : Word) : (cfgOfWord v).digits.toNat = v.toNat / 16 % 16 := by
  simp [cfgOfWord, BitVec.extractLsb'_toNat, Nat.shiftRight_eq_div_pow]

/-! ### The invariant right after reset (10_state.md R40, R45) -/

/-- A block at its reset values meets the invariant: no error, no secret, no digits shown, DIGITS = 6, PERIOD = 30. -/
theorem State.AtResetValues.inv {s : State} (h : s.AtResetValues) : s.Inv := by
  obtain ⟨hbusy, _, herr, _⟩ := h.status
  exact {
    digits := by simp [h.cfg]
    period := by simp [h.period]
    secret := by simp [h.secret]
    busy := by simp [hbusy]
    errcode := .inl h.errcode
    code := ⟨0, by decide, fun j => ⟨fun hj => absurd hj (Nat.not_lt_zero _), fun _ => h.code j⟩⟩
    codeVal := by simp [h.codeVal]
    errHasCode := by simp [herr]
    heldInReset := fun _ => h }

/-- Reset of the block puts every register at its reset value, whatever the level of the pin after it. -/
theorem State.resetBlock_atResetValues (s : State) (b : Bool) :
    State.AtResetValues { s.resetBlock with rst := b } where
  secret := rfl
  stage := fun i => zeroBytes_getElem 128 i.val i.isLt
  keylen := rfl
  latches := ⟨rfl, rfl⟩
  status := ⟨rfl, rfl, rfl, rfl, rfl, rfl⟩
  errcode := rfl
  ie := rfl
  cfg := rfl
  period := rfl
  data := ⟨rfl, rfl⟩
  candLen := rfl
  cand := fun i => zeroBytes_getElem 12 i.val i.isLt
  ctr := ⟨rfl, rfl⟩
  codeVal := rfl
  code := fun i => zeroBytes_getElem 12 i.val i.isLt
  digest := fun i => zeroBytes_getElem 64 i.val i.isLt

/-- Settles O46: the reset state is the block reset with the pin released. -/
theorem resetMeetsTheInvariant : Obligations.ResetMeetsTheInvariant :=
  (State.resetBlock_atResetValues State.reset false).inv

/-! ### Every step keeps the invariant (10_state.md R45) -/

/-- The invariant says nothing of the agenda, the port's last word and the time input. -/
theorem State.Inv.with_inputs {s : State} (hi : s.Inv) (es : List Event) (w : Word) (n : DWord) :
    State.Inv { s with agenda := es, rdata := w, timeIn := n } :=
  { hi with heldInReset := fun hr => { hi.heldInReset hr with } }

/-- The clause about a block held in reset is void while `rst` is released. -/
theorem heldInReset_of_released {s : State} (hr : s.rst = false) {p : Prop} (h : s.rst = true) : p :=
  absurd (hr.symm.trans h) nofun

/-- The numbers of the three errors that are raised (60_exceptions.md R261). -/
def ErrKind.raised (e : ErrKind) : Prop := e.code = 1#8 ∨ e.code = 3#8 ∨ e.code = 5#8

/-- ERRCODE 0 is no error (60_exceptions.md R261). -/
theorem ErrKind.code_ne_zero (e : ErrKind) : e.code ≠ 0#8 := by
  cases e <;> decide

/-- A failing completion out of reset keeps the invariant. -/
theorem State.Inv.failWith {s : State} (hi : s.Inv) (hr : s.rst = false) (e : ErrKind) (he : e.raised) :
    (s.failWith e).Inv :=
  { hi with
    busy := nofun
    errcode := .inr he
    errHasCode := fun _ => e.code_ne_zero
    heldInReset := heldInReset_of_released hr }

/-- Each character of a formatted code is an ASCII digit (44_code.md R222). -/
theorem fmtDec_getElem_digit (v digits j : Nat) (h : j < (fmtDec v digits).length) :
    0x30 ≤ (fmtDec v digits)[j].toNat ∧ (fmtDec v digits)[j].toNat ≤ 0x39 := by
  have hd : v / 10 ^ (digits - 1 - j) % 10 < 10 := Nat.mod_lt _ (by decide)
  simp only [fmtDec, List.getElem_map, List.getElem_range, BitVec.toNat_ofNat]
  omega

/-- A code over zero bytes is its digits, then zeros (10_state.md R45 item 5). -/
theorem overwriteFront_otp_shape (b : Vector Byte 12) (alg : Alg) (key : List Byte) (digits : Nat) (c : DWord)
    (hb : ∀ i : Fin 12, b[i] = 0x00#8) (j : Fin 12) :
    (j.val < digits → 0x30 ≤ (overwriteFront b (otp alg key digits c).2)[j].toNat ∧
      (overwriteFront b (otp alg key digits c).2)[j].toNat ≤ 0x39) ∧
    (digits ≤ j.val → (overwriteFront b (otp alg key digits c).2)[j] = 0x00#8) := by
  obtain ⟨v, hv⟩ : ∃ v, (otp alg key digits c).2 = fmtDec v digits := ⟨_, rfl⟩
  simp only [Fin.getElem_fin, hv]
  constructor
  · intro hj
    have hl : j.val < (fmtDec v digits).length := by rwa [fmtDec_length]
    rw [overwriteFront_getElem_lt b _ j.val j.isLt hl]
    exact fmtDec_getElem_digit v digits j.val hl
  · intro hj
    rw [overwriteFront_getElem_ge b _ j.val j.isLt (by rwa [fmtDec_length])]
    exact hb j

/-- The truncated value has its top bit clear (44_code.md R220). -/
theorem dynTrunc_toNat_lt (d : List Byte) : (dynTrunc d).toNat < 2 ^ 31 := by
  rw [dynTrunc, BitVec.toNat_and]
  exact Nat.and_lt_two_pow _ (by decide)

/-- CODE_VAL as CODE writes it is below 2^31 (10_state.md R36, 44_code.md R221). -/
theorem codeVal_otp_lt (alg : Alg) (key : List Byte) (digits : Nat) (c : DWord) :
    (BitVec.ofNat 32 (otp alg key digits c).1).toNat < 2 ^ 31 := by
  have hv : (otp alg key digits c).1 ≤ (dynTrunc (hmac alg key (serCounter c))).toNat := Nat.mod_le _ _
  rw [BitVec.toNat_ofNat]
  exact Nat.lt_of_le_of_lt ((Nat.mod_le _ _).trans hv) (dynTrunc_toNat_lt _)

/-- The key KEYSET stores has the length it did not refuse (40_key.md R121 to R123). -/
theorem keysetKey_length (gen : Bool) (s : State) (h : keyLengthRefused gen s.keylen.toNat = false) :
    1 ≤ (s.stage.toList.take s.keylen.toNat).length ∧ (s.stage.toList.take s.keylen.toNat).length ≤ 128 := by
  have hk := mt (keyLengthRefused_iff gen s.keylen.toNat).mpr (by simp [h])
  rw [List.length_take, Vector.length_toList]
  omega

/-- A command in progress out of reset keeps the invariant when it completes: `busy` and `heldInReset` no longer apply,
KEYSET stores a length it did not refuse, and CODE writes its digits over zeros. -/
theorem State.Inv.exec {s t : State} (hi : s.Inv) (hr : s.rst = false) (hb : s.busy = true) (i : Instr)
    (h : exec i s = .next t) : t.Inv := by
  obtain ⟨-, -, -, -, -, -, -, hcode, -⟩ := hi.busy hb
  rcases exec_cases i s with ⟨_, _, _, e⟩ | ⟨gen, _, hk, e⟩ | ⟨_, _, e⟩ | ⟨_, _, e⟩ | ⟨_, _, _, _, _, _, _, _, e⟩ |
    ⟨_, key, c, _, _, _, _, rfl, e⟩ | ⟨_, _, _, _, _, _, e⟩ <;> cases e.symm.trans h
  · have hscrub : s.scrub.Inv := { hi with heldInReset := heldInReset_of_released hr }
    exact hscrub.failWith hr _ (.inr (.inl rfl))
  · exact { hi with
      secret := fun key h => by cases h; exact keysetKey_length gen s hk
      busy := nofun
      heldInReset := heldInReset_of_released hr }
  · exact { hi with busy := nofun, heldInReset := heldInReset_of_released hr }
  · exact hi.failWith hr _ (.inl rfl)
  · exact { hi with busy := nofun, heldInReset := heldInReset_of_released hr }
  · exact { hi with
      busy := nofun
      code := ⟨s.cfg.digits.toNat, hi.digits.2, overwriteFront_otp_shape s.code _ key _ c hcode⟩
      codeVal := codeVal_otp_lt _ key _ c
      heldInReset := heldInReset_of_released hr }
  · exact { hi with busy := nofun, heldInReset := heldInReset_of_released hr }

/-- The engine's turn keeps the invariant. -/
theorem State.Inv.engineTurn {s t : State} (hi : s.Inv) (h : engineTurn s = .next t) : t.Inv := by
  rcases engineTurn_cases s with ⟨_, e⟩ | ⟨hb, hr, i, _, e⟩ | ⟨_, hr, _, e⟩
  · cases e.symm.trans h
    exact hi
  · exact hi.exec hr hb i (e.symm.trans h)
  · cases e.symm.trans h
    exact hi.failWith hr _ (.inr (.inr rfl))

/-- Acceptance out of reset sets up what the invariant says of a command in progress (30_encoding.md R96). -/
theorem State.Inv.accept {s : State} (hi : s.Inv) (hr : s.rst = false) (w : Word) : (s.accept w).Inv :=
  { hi with
    busy := fun _ => ⟨rfl, rfl, rfl, rfl, rfl, rfl, rfl, fun i => zeroBytes_getElem 12 i.val i.isLt,
      fun i => zeroBytes_getElem 64 i.val i.isLt⟩
    errcode := .inl rfl
    code := ⟨0, by decide, fun j =>
      ⟨fun h => absurd h (Nat.not_lt_zero _), fun _ => zeroBytes_getElem 12 j.val j.isLt⟩⟩
    codeVal := Nat.two_pow_pos 31
    errHasCode := nofun
    heldInReset := heldInReset_of_released hr }

/-- A write of the host out of reset keeps the invariant: a legal CFG value has DIGITS 1 to 10, a stored PERIOD is not
0, and no other register a write reaches is spoken of. -/
theorem State.Inv.regWrite {s : State} (hi : s.Inv) (hr : s.rst = false) (v : Word) (r : Reg) :
    (regWrite s v r).Inv := by
  rcases regWrite_cases s v r with ⟨_, e⟩ | ⟨hb, ⟨_, e⟩ | ⟨_, e⟩ | ⟨_, e⟩ | ⟨_, hc, e⟩ | ⟨_, hv, e⟩ | ⟨_, e⟩ |
    ⟨_, e⟩ | ⟨_, e⟩ | ⟨_, e⟩ | ⟨_, _, e⟩ | ⟨_, e⟩ | ⟨_, _, e⟩ | e⟩ <;> rw [e]
  · exact { hi with heldInReset := heldInReset_of_released hr }
  · exact hi.accept hr v
  · exact { hi with
      busy := fun h => absurd (hb.symm.trans h) nofun
      errHasCode := fun h => hi.errHasCode (Bool.and_elim_left h)
      heldInReset := heldInReset_of_released hr }
  · exact { hi with heldInReset := heldInReset_of_released hr }
  · obtain ⟨-, hmin, hmax, -⟩ := (cfgLegal_iff v).mp hc
    rw [← cfgOfWord_digits_toNat] at hmin hmax
    exact { hi with digits := ⟨hmin, hmax⟩, heldInReset := heldInReset_of_released hr }
  · have hpos : 1 ≤ v.toNat := Nat.pos_of_ne_zero fun h => hv (BitVec.eq_of_toNat_eq h)
    exact { hi with period := hpos, heldInReset := heldInReset_of_released hr }
  all_goals exact { hi with heldInReset := heldInReset_of_released hr }

/-- Driving `rst` keeps the invariant: nothing changes, or the block is at its reset values. -/
theorem State.Inv.driveRst {s : State} (hi : s.Inv) (b : Bool) : (driveRst s b).Inv := by
  rcases driveRst_cases s b with ⟨_, _, e⟩ | ⟨_, e⟩ <;> rw [e]
  · exact hi
  · exact (s.resetBlock_atResetValues b).inv

/-- Settles O47, one case for each kind of step: what the event takes from the agenda, then the rule of its agent. -/
theorem stepKeepsTheInvariant : Obligations.StepKeepsTheInvariant := by
  intro s t hi h
  have hrest : ∀ rest, State.Inv { s with agenda := rest } := fun rest => hi.with_inputs rest s.rdata s.timeIn
  rcases step_cases s t h with ⟨rest, _, he⟩ | ⟨off, rest, _, _, _, _, rfl⟩ | ⟨off, v, rest, _, _, _, hr, rfl⟩ |
    ⟨n, rest, _, rfl⟩ | ⟨b, rest, _, rfl⟩
  · exact (hrest rest).engineTurn he
  · exact hi.with_inputs rest _ s.timeIn
  · exact (hrest rest).regWrite hr v _
  · exact hi.with_inputs rest s.rdata n
  · exact (hrest rest).driveRst b

end Sys2Proof.Machine

namespace Sys2Proof.Machine

/-! ### The secret flows only through the hash commands (10_state.md R24, R25) -/

/-- A state that the host cannot tell from `s` is `s` with another secret, set alike, and another staging buffer. -/
theorem sameToTheHost_iff (s s' : State) : SameToTheHost s s' ↔
    ∃ (key : Option (List Byte)) (stage : Vector Byte 128), s' = { s with secret := key, stage := stage } ∧
      key.isSome = s.secret.isSome := by
  constructor
  · rintro ⟨he, hk⟩
    exact ⟨s'.secret, s'.stage, he, hk⟩
  · rintro ⟨key, stage, rfl, hk⟩
    exact ⟨rfl, hk⟩

theorem SameToTheHost.busy_eq {s s' : State} (h : SameToTheHost s s') : s'.busy = s.busy := by rw [h.1]

theorem SameToTheHost.rst_eq {s s' : State} (h : SameToTheHost s s') : s'.rst = s.rst := by rw [h.1]

theorem SameToTheHost.cmdLatch_eq {s s' : State} (h : SameToTheHost s s') : s'.cmdLatch = s.cmdLatch := by rw [h.1]

theorem SameToTheHost.agenda_eq {s s' : State} (h : SameToTheHost s s') : s'.agenda = s.agenda := by rw [h.1]

/-- A read returns nothing of the secret but whether it is set, and nothing of the staging buffer. -/
theorem SameToTheHost.regRead_eq {s s' : State} (h : SameToTheHost s s') (r : Reg) : regRead s' r = regRead s r := by
  obtain ⟨key, stage, rfl, hs⟩ := (sameToTheHost_iff s s').mp h
  have hv : State.keyValid { s with secret := key, stage := stage } = s.keyValid := hs
  cases r with
  | status => simp [regRead, State.statusWord, hv]
  | _ => rfl

/-- A read of the host returns the same word, or stops in both. -/
theorem SameToTheHost.hostReads_eq {s s' : State} (h : SameToTheHost s s') (off : Nat) :
    hostReads s off = hostReads s' off := by
  by_cases hl : off % 4 = 0 ∧ off < 512 ∧ s.rst = false
  · obtain ⟨h4, hw, hs⟩ := hl
    rw [hostReads_legal s off h4 hw hs, hostReads_legal s' off h4 hw (h.rst_eq.trans hs), h.regRead_eq]
  · rw [hostReads_none s off hl, hostReads_none s' off (by rwa [h.rst_eq])]

/-- A write does the same to both. -/
theorem SameToTheHost.regWrite {s s' : State} (h : SameToTheHost s s') (v : Word) (r : Reg) :
    SameToTheHost (regWrite s v r) (regWrite s' v r) := by
  obtain ⟨key, stage, rfl, hs⟩ := (sameToTheHost_iff s s').mp h
  rcases Bool.eq_false_or_eq_true s.busy with hb | hb
  · rw [regWrite_busy s v r hb, regWrite_busy { s with secret := key, stage := stage } v r hb]
    exact ⟨rfl, hs⟩
  · rw [regWrite_idle s v r hb, regWrite_idle { s with secret := key, stage := stage } v r hb]
    cases r with
    | cfg =>
      by_cases hc : cfgLegal v = true
      · rw [writeIdle_cfg_of_legal _ v hc, writeIdle_cfg_of_legal _ v hc]
        exact ⟨rfl, hs⟩
      · rw [writeIdle_cfg_of_illegal _ v hc, writeIdle_cfg_of_illegal _ v hc]
        exact ⟨rfl, hs⟩
    | period =>
      by_cases hv : v = 0#32
      · subst hv
        exact ⟨rfl, hs⟩
      · rw [writeIdle_period_of_ne_zero _ v hv, writeIdle_period_of_ne_zero _ v hv]
        exact ⟨rfl, hs⟩
    | _ => exact ⟨rfl, hs⟩

/-- A change of `rst` does the same to both; a reset unsets both secrets. -/
theorem SameToTheHost.driveRst {s s' : State} (h : SameToTheHost s s') (b : Bool) :
    SameToTheHost (driveRst s b) (driveRst s' b) := by
  obtain ⟨key, stage, rfl, hs⟩ := (sameToTheHost_iff s s').mp h
  unfold Machine.driveRst
  cases b || s.rst
  · exact ⟨rfl, hs⟩
  · exact ⟨rfl, rfl⟩

/-- A failing completion does the same to both. -/
theorem SameToTheHost.failWith {s s' : State} (h : SameToTheHost s s') (e : ErrKind) :
    SameToTheHost (s.failWith e) (s'.failWith e) := by
  obtain ⟨key, stage, rfl, hs⟩ := (sameToTheHost_iff s s').mp h
  exact ⟨rfl, hs⟩

/-- KEYSET refuses the same lengths in both, or sets a secret in both; SLICE reads no secret. -/
theorem SameToTheHost.exec_agree {s s' : State} (h : SameToTheHost s s') (i : Instr) (hi : i.readsSecret = false) :
    OutcomesAgree (exec i s) (exec i s') := by
  obtain ⟨key, stage, rfl, hs⟩ := (sameToTheHost_iff s s').mp h
  cases i with
  | keyset gen =>
    simp only [exec, execKeyset]
    cases keyLengthRefused gen s.keylen.toNat
    · exact ⟨rfl, rfl⟩
    · exact ⟨rfl, hs⟩
  | slice dflt => cases dflt <;> exact ⟨rfl, hs⟩
  | hmac dflt => cases hi
  | code dflt => cases hi
  | verify dflt => cases hi

/-- The engine's turn answers alike when it completes no command that reads the secret. -/
theorem SameToTheHost.engineTurn_agree {s s' : State} (h : SameToTheHost s s')
    (hi : s.busy = true → ∀ i, decode s.cmdLatch = .ok i → i.readsSecret = false) :
    OutcomesAgree (engineTurn s) (engineTurn s') := by
  unfold engineTurn completion
  rw [h.busy_eq, h.rst_eq, h.cmdLatch_eq]
  cases hb : s.busy && !s.rst
  · exact h
  · cases hd : decode s.cmdLatch with
    | ok i => exact h.exec_agree i (hi (Bool.and_elim_left hb) i hd)
    | error _ => exact h.failWith _

/-- An access stops in both for one reason, or reaches one register in both. -/
theorem hostAccess_agree {s s' : State} (h : s'.rst = s.rst) (off size : Nat) (k k' : Reg → State)
    (hk : ∀ r, SameToTheHost (k r) (k' r)) : OutcomesAgree (hostAccess s off size k) (hostAccess s' off size k') := by
  unfold hostAccess
  rw [h]
  split
  · rfl
  · split
    · rfl
    · split
      · rfl
      · exact hk _

/-- One event does the same to both, unless it is the engine's turn on a command that reads the secret. -/
theorem SameToTheHost.runEvent_agree {s s' : State} (h : SameToTheHost s s') (e : Event)
    (hi : e = .engine → s.busy = true → ∀ i, decode s.cmdLatch = .ok i → i.readsSecret = false) :
    OutcomesAgree (runEvent e s) (runEvent e s') := by
  cases e with
  | read off size =>
    refine hostAccess_agree h.rst_eq off size (fun r => { s with rdata := regRead s r })
      (fun r => { s' with rdata := regRead s' r }) fun r => ?_
    rw [h.regRead_eq]
    obtain ⟨key, stage, rfl, hs⟩ := (sameToTheHost_iff s s').mp h
    exact ⟨rfl, hs⟩
  | write off size v => exact hostAccess_agree h.rst_eq off size _ _ fun r => h.regWrite v r
  | engine => exact h.engineTurn_agree (hi rfl)
  | timeIn n =>
    obtain ⟨key, stage, rfl, hs⟩ := (sameToTheHost_iff s s').mp h
    exact ⟨rfl, hs⟩
  | rst b => exact h.driveRst b

/-- The same events are to come in both. -/
theorem SameToTheHost.with_agenda {s s' : State} (h : SameToTheHost s s') (rest : List Event) :
    SameToTheHost { s with agenda := rest } { s' with agenda := rest } := by
  obtain ⟨key, stage, rfl, hs⟩ := (sameToTheHost_iff s s').mp h
  exact ⟨rfl, hs⟩

/-- One step does the same to both, unless it completes a command that reads the secret. -/
theorem SameToTheHost.step_agree {s s' : State} (h : SameToTheHost s s')
    (hi : ∀ (rest : List Event) (i : Instr), engineMoves s rest → s.busy = true → decode s.cmdLatch = .ok i →
      i.readsSecret = false) : OutcomesAgree (step s) (step s') := by
  unfold step
  rw [h.agenda_eq]
  cases ha : s.agenda with
  | nil => exact h.engineTurn_agree fun hb i => hi [] i (.inl ⟨ha, rfl⟩) hb
  | cons e rest =>
    refine (h.with_agenda rest).runEvent_agree e fun he hb i => hi rest i (.inr ?_) hb
    rw [ha, he]

/-- Settles O58: the reads, and the step by its event. -/
theorem secretFlowsOnlyThroughHashCommands : Obligations.SecretFlowsOnlyThroughHashCommands :=
  fun _ _ h => ⟨h.hostReads_eq, h.step_agree⟩

/-! ### Sequences of host accesses (10_state.md R24, R25) -/

theorem regWrite_agenda (s : State) (v : Word) (r : Reg) : (regWrite s v r).agenda = s.agenda := by
  rcases regWrite_cases s v r with ⟨_, e⟩ | ⟨_, ⟨_, e⟩ | ⟨_, e⟩ | ⟨_, e⟩ | ⟨_, _, e⟩ | ⟨_, _, e⟩ | ⟨_, e⟩ | ⟨_, e⟩ |
    ⟨_, e⟩ | ⟨_, e⟩ | ⟨_, _, e⟩ | ⟨_, e⟩ | ⟨_, _, e⟩ | e⟩ <;> simp [e]

theorem driveRst_agenda (s : State) (b : Bool) : (driveRst s b).agenda = s.agenda := by
  rcases driveRst_cases s b with ⟨_, _, e⟩ | ⟨_, e⟩ <;> simp [e]

/-- A step takes the next event of the agenda and adds none. -/
theorem step_agenda (s t : State) (h : step s = .next t) : t.agenda = s.agenda.tail := by
  rcases step_cases s t h with ⟨rest, hm, he⟩ | ⟨off, rest, ha, _, _, _, rfl⟩ | ⟨off, v, rest, ha, _, _, _, rfl⟩ |
    ⟨n, rest, ha, rfl⟩ | ⟨b, rest, ha, rfl⟩
  · have hf : t.agenda = rest := congrArg State.agenda (engineTurn_frame _ t he)
    rcases hm with ⟨ha, rfl⟩ | ha <;> simp [hf, ha]
  · simp [ha]
  · rw [ha]
    exact regWrite_agenda _ v _
  · simp [ha]
  · rw [ha]
    exact driveRst_agenda _ b

/-- Two runs agree when their first steps agree and the runs from there do. -/
theorem runSteps_succ_agree (k : Nat) (s s' : State) (h : OutcomesAgree (step s) (step s'))
    (hk : ∀ t t', step s = .next t → SameToTheHost t t' → OutcomesAgree (runSteps k t) (runSteps k t')) :
    OutcomesAgree (runSteps (k + 1) s) (runSteps (k + 1) s') := by
  rw [runSteps_succ, runSteps_succ]
  generalize step s = o at h hk
  generalize step s' = o' at h
  cases o <;> cases o'
  case next.next t t' => exact hk t t' rfl h
  case fault.fault => exact h
  case refused.refused => exact h
  all_goals exact h.elim

/-- The engine has no turn while the agenda names only other agents. -/
theorem not_engineMoves (s : State) (rest : List Event) (hne : ∀ e ∈ s.agenda, e ≠ .engine) (ha : s.agenda ≠ []) :
    ¬ engineMoves s rest := by
  rintro (⟨hnil, -⟩ | hcons)
  · exact ha hnil
  · exact hne .engine (by simp [hcons]) rfl

/-- Settles O59, by induction on the number of steps: each takes an event that is not the engine's turn. -/
theorem hostAccessesCannotSeeTheSecret : Obligations.HostAccessesCannotSeeTheSecret := by
  intro k
  induction k with
  | zero => exact fun _ _ h _ _ => h
  | succ k ih =>
    intro s s' h hne hlen
    have ha : s.agenda ≠ [] := List.ne_nil_of_length_pos (by omega)
    have hstep := h.step_agree fun rest _ hm => absurd hm (not_engineMoves s rest hne ha)
    refine runSteps_succ_agree k s s' hstep fun t t' ht hsame => ?_
    have htail := step_agenda s t ht
    refine ih t t' hsame (fun e he => hne e (List.mem_of_mem_tail (htail ▸ he))) ?_
    rw [htail, List.length_tail]
    omega

end Sys2Proof.Machine

namespace Sys2Proof.Machine

/-! ### The bits of a word, by its number -/

/-- A bit of a word is `b` when that binary digit of its number is. -/
theorem getLsbD_eq_of_div_mod (v : Word) (i : Nat) (b : Bool) (h : v.toNat / 2 ^ i % 2 = b.toNat) :
    v.getLsbD i = b := by
  rw [BitVec.getLsbD, Nat.testBit_eq_decide_div_mod_eq, h]
  cases b <;> rfl

/-- A field of a word is `x` when those binary digits of its number are. -/
theorem extractLsb'_eq_of_div_mod (v : Word) (i n : Nat) (x : BitVec n) (h : v.toNat / 2 ^ i % 2 ^ n = x.toNat) :
    v.extractLsb' i n = x := by
  apply BitVec.eq_of_toNat_eq
  rw [BitVec.extractLsb'_toNat, Nat.shiftRight_eq_div_pow, h]

/-! ### Reads and writes of a named register (10_state.md R20) -/

theorem Reg.offset_aligned (r : Reg) : r.offset % 4 = 0 := by
  cases r <;> simp only [Reg.offset] <;> omega

theorem Reg.offset_lt (r : Reg) : r.offset < 512 := by
  cases r <;> simp only [Reg.offset] <;> omega

/-- A read at a register's offset returns its value (20_memory.md R62). -/
theorem hostReads_offset (s : State) (hr : s.rst = false) (r : Reg) : hostReads s r.offset = some (regRead s r) := by
  rw [hostReads_legal s r.offset r.offset_aligned r.offset_lt hr, regAt_offset]

/-- A write at a register's offset while idle does what that register's write does (20_memory.md R63). -/
theorem step_writeIdle (s : State) (rest : List Event) (r : Reg) (v : Word)
    (ha : s.agenda = .write r.offset 4 v :: rest) (hr : s.rst = false) (hb : s.busy = false) :
    step s = .next (writeIdle { s with agenda := rest } v r) := by
  rw [step_write s rest r.offset v ha r.offset_aligned r.offset_lt hr, regAt_offset,
    regWrite_idle { s with agenda := rest } v r hb]

/-! ### What CFG reads as and stores (10_state.md R30) -/

theorem Mode.bits_toNat_lt (m : Mode) : m.bits.toNat < 2 := m.bits.isLt

theorem Alg.bits_toNat_lt (a : Alg) : a.bits.toNat < 3 := by
  cases a <;> decide

theorem Mode.eq_totp_iff (m : Mode) : m = .totp ↔ m.bits.toNat = 1 := by
  cases m <;> decide

theorem Alg.eq_sha1_iff (a : Alg) : a = .sha1 ↔ a.bits.toNat = 0 := by
  cases a <;> decide

theorem Alg.eq_sha256_iff (a : Alg) : a = .sha256 ↔ a.bits.toNat = 1 := by
  cases a <;> decide

theorem Alg.eq_sha512_iff (a : Alg) : a = .sha512 ↔ a.bits.toNat = 2 := by
  cases a <;> decide

/-- CFG as a number: the four fields at their bits, with room for each. -/
theorem Cfg.word_toNat (c : Cfg) :
    c.word.toNat = c.mode.bits.toNat + 2 * c.alg.bits.toNat + 16 * c.digits.toNat + 256 * c.adj.toNat := by
  have hm := c.mode.bits_toNat_lt
  have ha := c.alg.bits_toNat_lt
  have hd := c.digits.isLt
  have hj := c.adj.isLt
  rw [Cfg.word, BitVec.toNat_ofNat]
  omega

theorem Mode.bits_toNat (m : Mode) : m.bits.toNat = (decide (m = .totp)).toNat := by
  cases m <;> rfl

/-- Each field of CFG, and each reserved bit, as the host reads it. -/
theorem Cfg.word_fields (c : Cfg) : c.word.getLsbD 0 = decide (c.mode = .totp) ∧
    c.word.extractLsb' 1 2 = c.alg.bits ∧ c.word.getLsbD 3 = false ∧ c.word.extractLsb' 4 4 = c.digits ∧
    c.word.extractLsb' 8 8 = c.adj ∧ c.word.extractLsb' 16 16 = 0#16 := by
  have hw := c.word_toNat
  have hm := c.mode.bits_toNat_lt
  have hm' := c.mode.bits_toNat
  have ha := c.alg.bits_toNat_lt
  have hd := c.digits.isLt
  have hj := c.adj.isLt
  refine ⟨getLsbD_eq_of_div_mod _ 0 _ ?_, extractLsb'_eq_of_div_mod _ 1 2 _ ?_, getLsbD_eq_of_div_mod _ 3 _ ?_,
    extractLsb'_eq_of_div_mod _ 4 4 _ ?_, extractLsb'_eq_of_div_mod _ 8 8 _ ?_,
    extractLsb'_eq_of_div_mod _ 16 16 _ ?_⟩
  · omega
  · omega
  · rw [Bool.toNat_false]
    omega
  · omega
  · omega
  · rw [BitVec.toNat_ofNat]
    omega

theorem cfgOfWord_mode_bits_toNat (v : Word) : (cfgOfWord v).mode.bits.toNat = v.toNat % 2 := by
  have hv : (v.getLsbD 0).toNat = v.toNat % 2 := by
    rw [BitVec.getLsbD, Nat.toNat_testBit, Nat.pow_zero, Nat.div_one]
  rw [← hv, cfgOfWord]
  cases v.getLsbD 0 <;> rfl

theorem cfgOfWord_adj_toNat (v : Word) : (cfgOfWord v).adj.toNat = v.toNat / 256 % 256 := by
  simp [cfgOfWord, BitVec.extractLsb'_toNat, Nat.shiftRight_eq_div_pow]

/-- ALG of a written value is its bits 2:1, unless they are the code 3 that no algorithm has. -/
theorem cfgOfWord_alg_bits_toNat (v : Word) (h : v.toNat / 2 % 4 ≠ 3) :
    (cfgOfWord v).alg.bits.toNat = v.toNat / 2 % 4 := by
  have hx : (v.extractLsb' 1 2).toNat = v.toNat / 2 % 4 := by
    simp [BitVec.extractLsb'_toNat, Nat.shiftRight_eq_div_pow]
  simp only [cfgOfWord, ← BitVec.toNat_inj, hx]
  have h4 : v.toNat / 2 % 4 < 4 := Nat.mod_lt _ (by decide)
  obtain h' | h' | h' : v.toNat / 2 % 4 = 0 ∨ v.toNat / 2 % 4 = 1 ∨ v.toNat / 2 % 4 = 2 := by omega
  all_goals simp [h', Alg.bits]

/-- A legal value reads back as it was written. -/
theorem Cfg.word_cfgOfWord (v : Word) (h : legalCfgValue v) : (cfgOfWord v).word = v := by
  obtain ⟨halg, -, -, h3, hhi⟩ := h
  apply BitVec.eq_of_toNat_eq
  rw [Cfg.word_toNat, cfgOfWord_mode_bits_toNat, cfgOfWord_alg_bits_toNat v halg, cfgOfWord_digits_toNat,
    cfgOfWord_adj_toNat]
  omega

/-- Settles O15: the legality test of the model is the rule's, and each field is its bits. -/
theorem cfgWriteReplacesOrRefuses : Obligations.CfgWriteReplacesOrRefuses := by
  intro s rest v ha hr hb
  have hstep := step_writeIdle s rest .cfg v ha hr hb
  constructor
  · intro hv
    have halg := hv.1
    refine ⟨cfgOfWord v, ?_, ?_, ?_, ?_, ?_, cfgOfWord_digits_toNat v, cfgOfWord_adj_toNat v, ?_⟩
    · rw [hstep, writeIdle_cfg_of_legal _ v ((cfgLegal_iff v).mpr hv)]
    · rw [Mode.eq_totp_iff, cfgOfWord_mode_bits_toNat]
    · rw [Alg.eq_sha1_iff, cfgOfWord_alg_bits_toNat v halg]
    · rw [Alg.eq_sha256_iff, cfgOfWord_alg_bits_toNat v halg]
    · rw [Alg.eq_sha512_iff, cfgOfWord_alg_bits_toNat v halg]
    · exact (hostReads_offset { s with cfg := cfgOfWord v } hr .cfg).trans (congrArg some (Cfg.word_cfgOfWord v hv))
  · intro hv
    rw [hstep, writeIdle_cfg_of_illegal _ v (mt (cfgLegal_iff v).mp hv)]

/-! ### Writes of the other registers (20_memory.md R63) -/

/-- Settles O16, by the two cases of a PERIOD write. -/
theorem periodWriteStoresOrRefuses : Obligations.PeriodWriteStoresOrRefuses := by
  intro s rest v ha hr hb
  have hstep := step_writeIdle s rest .period v ha hr hb
  constructor
  · intro hv
    rw [hstep, writeIdle_period_of_ne_zero _ v hv]
  · rintro rfl
    rw [hstep, writeIdle_period_zero]

/-- Settles O13: the bits a narrow register keeps are the written number modulo its size. -/
theorem narrowRegisterWritesDropHighBits : Obligations.NarrowRegisterWritesDropHighBits := by
  intro s rest v hr hb
  exact ⟨fun ha => ⟨v.extractLsb' 0 2, by simp, step_writeIdle s rest .ie v ha hr hb⟩,
    fun ha => ⟨v.extractLsb' 0 8, by simp, step_writeIdle s rest .candLen v ha hr hb⟩,
    fun ha => ⟨v.extractLsb' 0 8, by simp, step_writeIdle s rest .keylen v ha hr hb⟩⟩

/-- Settles O14: the write stores one word of the staging buffer. -/
theorem keyWordWriteFillsFourStagingBytes : Obligations.KeyWordWriteFillsFourStagingBytes := by
  intro s rest k v hk ha hr hb
  exact ⟨setWord s.stage k v, step_writeIdle s rest (.keyw ⟨k, hk⟩) v ha hr hb,
    fun i => setWord_getElem s.stage k v i.val i.isLt⟩

/-- A write-one-to-clear flag. -/
theorem and_not_eq_ite (b c : Bool) : (b && !c) = if c then false else b := by
  cases c <;> simp

/-- Settles O17: the write is the acknowledgement. -/
theorem statusWriteOneClears : Obligations.StatusWriteOneClears := by
  intro s rest v ha hr hb
  rw [step_writeIdle s rest .status v ha hr hb]
  simp only [writeIdle, State.acknowledge, and_not_eq_ite]

/-! ### Read values (10_state.md R20 to R38) -/

/-- Settles O11: each flag is one binary digit of STATUS, and the number is below 2^7. -/
theorem statusBitsReadTheFlags : Obligations.StatusBitsReadTheFlags := by
  intro s hr
  have h0 := s.busy.toNat_le
  have h1 := s.done.toNat_le
  have h2 := s.err.toNat_le
  have h3 := s.matched.toNat_le
  have h4 := s.keyValid.toNat_le
  have h5 := s.cfgRej.toNat_le
  have h6 := s.busyErr.toNat_le
  have hw : s.statusWord.toNat = s.busy.toNat + 2 * s.done.toNat + 4 * s.err.toNat + 8 * s.matched.toNat
      + 16 * s.keyValid.toNat + 32 * s.cfgRej.toNat + 64 * s.busyErr.toNat := by
    rw [State.statusWord, BitVec.toNat_ofNat]
    omega
  have hkey : s.statusWord.getLsbD 4 = s.keyValid := getLsbD_eq_of_div_mod _ 4 _ (by omega)
  refine ⟨s.statusWord, hostReads_offset s hr .status, getLsbD_eq_of_div_mod _ 0 _ (by omega),
    getLsbD_eq_of_div_mod _ 1 _ (by omega), getLsbD_eq_of_div_mod _ 2 _ (by omega),
    getLsbD_eq_of_div_mod _ 3 _ (by omega), ?_, getLsbD_eq_of_div_mod _ 5 _ (by omega),
    getLsbD_eq_of_div_mod _ 6 _ (by omega), fun j hj => ?_⟩
  · rw [hkey, State.keyValid, Option.isSome_iff_ne_none]
  · have hlt : s.statusWord.toNat < 2 ^ j := Nat.lt_of_lt_of_le (by omega) (Nat.pow_le_pow_right (by decide) hj)
    exact Nat.testBit_lt_two_pow hlt

/-- A read of a word of a byte string returns its four bytes, the first most significant (20_memory.md R70). -/
theorem hostReads_word (s : State) (hr : s.rst = false) (r : Reg) {n : Nat} (b : Vector Byte n) (k : Nat)
    (h : 4 * k + 3 < n) (e : regRead s r = wordOf b k) :
    hostReads s r.offset = some (b[4 * k] ++ b[4 * k + 1] ++ b[4 * k + 2] ++ b[4 * k + 3]) := by
  rw [hostReads_offset s hr r, e, wordOf_eq_append b k h]

/-- Settles O10: each read is the register's value, a word of a byte string is its four bytes, and a narrow register is
extended with zeros. -/
theorem readValueOfEachRegister : Obligations.ReadValueOfEachRegister := by
  intro s hr
  have hread := hostReads_offset s hr
  refine ⟨hread .id, ⟨_, hread .errcode, ?_⟩, ⟨_, hread .ie, ?_⟩, ⟨_, hread .cfg, ?_⟩, hread .period, hread .dataLo,
    hread .dataHi, ⟨_, hread .candLen, ?_⟩,
    fun k h => hostReads_word s hr (.cand ⟨k, h⟩) s.cand k (by omega) rfl, hread .ctrLo, hread .ctrHi, hread .codeVal,
    fun k h => hostReads_word s hr (.code ⟨k, h⟩) s.code k (by omega) rfl, ⟨_, hread .keylen, ?_⟩,
    fun k h => hostReads_word s hr (.digest ⟨k, h⟩) s.digest k (by omega) rfl⟩
  · exact BitVec.toNat_setWidth_of_le (by decide)
  · exact BitVec.toNat_setWidth_of_le (by decide)
  · exact s.cfg.word_fields
  · exact BitVec.toNat_setWidth_of_le (by decide)
  · exact BitVec.toNat_setWidth_of_le (by decide)

end Sys2Proof.Machine

namespace Sys2Proof.Machine

/-! ### Who writes the latches, CFG, PERIOD and MATCH (10_state.md R27, R30, R31, R43) -/

/-- The offset of an access that reached a named register. -/
theorem eq_offset_of_regAt (off : Nat) (r : Reg) (h4 : off % 4 = 0) (hw : off < 512) (h : regAt off = r)
    (hr : r ≠ .reserved) : off = r.offset := by
  subst h
  exact ((regAt_cases off h4 hw).resolve_left hr).symm

/-- A write keeps the latches, or is acceptance while idle. -/
theorem regWrite_latches (s : State) (v : Word) (r : Reg) :
    ((regWrite s v r).cmdLatch = s.cmdLatch ∧ (regWrite s v r).nowLatch = s.nowLatch) ∨
    (s.busy = false ∧ r = .cmd ∧ regWrite s v r = s.accept v) := by
  rcases regWrite_cases s v r with ⟨_, e⟩ | ⟨hb, ⟨hr, e⟩ | ⟨_, e⟩ | ⟨_, e⟩ | ⟨_, _, e⟩ | ⟨_, _, e⟩ | ⟨_, e⟩ |
    ⟨_, e⟩ | ⟨_, e⟩ | ⟨_, e⟩ | ⟨_, _, e⟩ | ⟨_, e⟩ | ⟨_, _, e⟩ | e⟩
  on_goal 2 => exact .inr ⟨hb, hr, e⟩
  all_goals exact .inl (by simp [e])

/-- A write keeps CFG and PERIOD, or replaces one of them by a legal value while idle. -/
theorem regWrite_configuration (s : State) (v : Word) (r : Reg) :
    ((regWrite s v r).cfg = s.cfg ∧ (regWrite s v r).period = s.period) ∨
    (s.busy = false ∧ r = .cfg ∧ cfgLegal v = true ∧ (regWrite s v r).period = s.period) ∨
    (s.busy = false ∧ r = .period ∧ v ≠ 0#32 ∧ (regWrite s v r).period = v ∧ (regWrite s v r).cfg = s.cfg) := by
  rcases Bool.eq_false_or_eq_true s.busy with hb | hb
  · rw [regWrite_busy s v r hb]
    exact .inl ⟨rfl, rfl⟩
  · rw [regWrite_idle s v r hb]
    cases r with
    | cfg =>
      by_cases hc : cfgLegal v = true
      · rw [writeIdle_cfg_of_legal s v hc]
        exact .inr (.inl ⟨hb, rfl, hc, rfl⟩)
      · rw [writeIdle_cfg_of_illegal s v hc]
        exact .inl ⟨rfl, rfl⟩
    | period =>
      by_cases hv : v = 0#32
      · subst hv
        exact .inl ⟨rfl, rfl⟩
      · rw [writeIdle_period_of_ne_zero s v hv]
        exact .inr (.inr ⟨hb, rfl, hv, rfl, rfl⟩)
    | _ => exact .inl ⟨rfl, rfl⟩

/-- A write keeps MATCH, or clears it by acceptance. -/
theorem regWrite_matched (s : State) (v : Word) (r : Reg) :
    (regWrite s v r).matched = s.matched ∨ (regWrite s v r).matched = false := by
  rcases regWrite_cases s v r with ⟨_, e⟩ | ⟨_, ⟨_, e⟩ | ⟨_, e⟩ | ⟨_, e⟩ | ⟨_, _, e⟩ | ⟨_, _, e⟩ | ⟨_, e⟩ | ⟨_, e⟩ |
    ⟨_, e⟩ | ⟨_, e⟩ | ⟨_, _, e⟩ | ⟨_, e⟩ | ⟨_, _, e⟩ | e⟩ <;> simp [e]

/-- A command sets MATCH only as VERIFY with a secret stored. -/
theorem exec_matched (i : Instr) (s t : State) (h : exec i s = .next t) (hs : s.matched = false)
    (ht : t.matched = true) : s.secret ≠ none ∧ ∃ dflt, i = .verify dflt := by
  rcases exec_cases i s with ⟨_, _, _, e⟩ | ⟨_, _, _, e⟩ | ⟨_, _, e⟩ | ⟨_, _, e⟩ | ⟨_, _, _, _, _, _, _, _, e⟩ |
    ⟨_, _, _, _, _, _, _, _, e⟩ | ⟨dflt, key, _, hi, hkey, _, e⟩
  on_goal 7 => exact ⟨by simp [hkey], dflt, hi⟩
  all_goals
    cases e.symm.trans h
    exact absurd (hs.symm.trans ht) nofun

/-- Settles O49: the engine keeps the latches by its frame, and the only write that reaches them is acceptance. -/
theorem latchesChangeOnlyByAcceptanceOrReset : Obligations.LatchesChangeOnlyByAcceptanceOrReset := by
  intro s t h hne
  have hkeep : ¬ (t.cmdLatch = s.cmdLatch ∧ t.nowLatch = s.nowLatch) := by
    rintro ⟨hc, hn⟩
    exact hne.elim (fun h => h hc) (fun h => h hn)
  rcases step_cases s t h with ⟨rest, _, he⟩ | ⟨_, _, _, _, _, _, rfl⟩ | ⟨off, v, rest, ha, h4, hw, _, rfl⟩ |
    ⟨_, _, _, rfl⟩ | ⟨b, rest, ha, rfl⟩
  · rw [engineTurn_frame _ t he] at hkeep
    exact absurd ⟨rfl, rfl⟩ hkeep
  · exact absurd ⟨rfl, rfl⟩ hkeep
  · rcases regWrite_latches { s with agenda := rest } v (regAt off) with hk | ⟨hb, hr, e⟩
    · exact absurd hk hkeep
    · obtain rfl := eq_offset_of_regAt off .cmd h4 hw hr nofun
      rw [e]
      exact .inr ⟨hb, rfl, rfl, rest, ha⟩
  · exact absurd ⟨rfl, rfl⟩ hkeep
  · rcases driveRst_cases { s with agenda := rest } b with ⟨_, _, e⟩ | ⟨_, e⟩ <;> rw [e] at hkeep ⊢
    · exact absurd ⟨rfl, rfl⟩ hkeep
    · exact .inl ⟨rfl, rfl, b, rest, ha⟩

/-- Settles O50: the engine keeps CFG and PERIOD by its frame, and a write reaches them only as a legal one. -/
theorem configurationChangesOnlyByLegalWrites : Obligations.ConfigurationChangesOnlyByLegalWrites := by
  intro s t h hne
  have hkeep : ¬ (t.cfg = s.cfg ∧ t.period = s.period) := by
    rintro ⟨hc, hp⟩
    exact hne.elim (fun h => h hc) (fun h => h hp)
  rcases step_cases s t h with ⟨rest, _, he⟩ | ⟨_, _, _, _, _, _, rfl⟩ | ⟨off, v, rest, ha, h4, hw, _, rfl⟩ |
    ⟨_, _, _, rfl⟩ | ⟨b, rest, ha, _⟩
  · rw [engineTurn_frame _ t he] at hkeep
    exact absurd ⟨rfl, rfl⟩ hkeep
  · exact absurd ⟨rfl, rfl⟩ hkeep
  · rcases regWrite_configuration { s with agenda := rest } v (regAt off) with hk | ⟨hb, hr, hc, hp⟩ |
      ⟨hb, hr, hv, hp, hc⟩
    · exact absurd hk hkeep
    · obtain rfl := eq_offset_of_regAt off .cfg h4 hw hr nofun
      exact .inr ⟨hb, v, rest, .inl ⟨ha, (cfgLegal_iff v).mp hc, hp⟩⟩
    · obtain rfl := eq_offset_of_regAt off .period h4 hw hr nofun
      exact .inr ⟨hb, v, rest, .inr ⟨ha, hv, hp, hc⟩⟩
  · exact absurd ⟨rfl, rfl⟩ hkeep
  · exact .inl ⟨b, rest, ha⟩

/-- Settles O51: MATCH rises in no step but the completion of a VERIFY. -/
theorem matchIsSetOnlyByVerify : Obligations.MatchIsSetOnlyByVerify := by
  intro s t h hs ht
  have hkeep : t.matched ≠ s.matched := by simp [hs, ht]
  rcases step_cases s t h with ⟨rest, _, he⟩ | ⟨_, _, _, _, _, _, rfl⟩ | ⟨off, v, rest, _, _, _, _, rfl⟩ |
    ⟨_, _, _, rfl⟩ | ⟨b, rest, _, rfl⟩
  · rcases engineTurn_cases { s with agenda := rest } with ⟨_, e⟩ | ⟨hb, _, i, hd, e⟩ | ⟨_, _, _, e⟩
    · cases e.symm.trans he
      exact absurd rfl hkeep
    · obtain ⟨hkey, dflt, rfl⟩ := exec_matched i _ t (e.symm.trans he) hs ht
      exact ⟨hb, hkey, dflt, hd⟩
    · cases e.symm.trans he
      exact absurd rfl hkeep
  · exact absurd rfl hkeep
  · rcases regWrite_matched { s with agenda := rest } v (regAt off) with e | e
    · exact absurd e hkeep
    · exact absurd (e.symm.trans ht) nofun
  · exact absurd rfl hkeep
  · rcases driveRst_cases { s with agenda := rest } b with ⟨_, _, e⟩ | ⟨_, e⟩ <;> rw [e] at ht
    · exact absurd (hs.symm.trans ht) nofun
    · cases ht

end Sys2Proof.Machine

namespace Sys2Proof.Machine

/-! ### Reads (20_memory.md R62) -/

theorem regAt_keyw_offset (off : Nat) (h4 : off % 4 = 0) (hlo : 0x100 ≤ off) (hhi : off ≤ 0x17C) :
    ∃ k, regAt off = .keyw k := by
  obtain ⟨k, rfl⟩ : ∃ k, off = 0x100 + 4 * k := ⟨(off - 0x100) / 4, by omega⟩
  exact ⟨_, regAt_keyw k (by omega)⟩

/-- Settles O9: the word read is the register's value, which is zero for CMD and for KEYW. -/
theorem readHasNoSideEffect : Obligations.ReadHasNoSideEffect := by
  intro s rest off ha ⟨h4, hw⟩ hr
  refine ⟨regRead s (regAt off), step_read s rest off ha h4 hw hr, hostReads_legal s off h4 hw hr, ?_⟩
  rintro (rfl | ⟨hlo, hhi⟩)
  · rfl
  · obtain ⟨k, hk⟩ := regAt_keyw_offset off h4 hlo hhi
    rw [hk]
    rfl

/-! ### Writes that store nothing (20_memory.md R64, R65, R66) -/

/-- The step that takes a legal write while a command is in progress. -/
theorem step_write_busy (s : State) (rest : List Event) (off : Nat) (v : Word)
    (ha : s.agenda = .write off 4 v :: rest) (h4 : off % 4 = 0) (hw : off < 512) (hr : s.rst = false)
    (hb : s.busy = true) : step s = .next { s with agenda := rest, busyErr := true } := by
  rw [step_write s rest off v ha h4 hw hr, regWrite_busy { s with agenda := rest } v _ hb]

/-- Settles O8: a write while busy, whatever register it names. -/
theorem writeWhileBusyOnlySetsBusyErr : Obligations.WriteWhileBusyOnlySetsBusyErr :=
  fun s rest off v ha ⟨h4, hw⟩ hr hb => step_write_busy s rest off v ha h4 hw hr hb

/-- A register that keeps nothing of a write: read-only (20_memory.md R63), or reserved (R65). -/
def Reg.ignoresWrites : Reg → Bool
  | .id | .errcode | .ctrLo | .ctrHi | .codeVal | .code _ | .digest _ | .reserved => true
  | .cmd | .status | .ie | .cfg | .period | .dataLo | .dataHi | .candLen | .cand _ | .keylen | .keyw _ => false

theorem writeIdle_of_ignoresWrites (s : State) (v : Word) (r : Reg) (h : r.ignoresWrites = true) :
    writeIdle s v r = s := by
  cases r with
  | cmd | status | ie | cfg | period | dataLo | dataHi | candLen | cand _ | keylen | keyw _ => cases h
  | _ => rfl

/-- The step that takes a legal write, while idle, of a register that keeps nothing of it. -/
theorem step_write_ignored (s : State) (rest : List Event) (off : Nat) (v : Word)
    (ha : s.agenda = .write off 4 v :: rest) (h4 : off % 4 = 0) (hw : off < 512) (hr : s.rst = false)
    (hb : s.busy = false) (hi : (regAt off).ignoresWrites = true) : step s = .next { s with agenda := rest } := by
  rw [step_write s rest off v ha h4 hw hr, regWrite_idle { s with agenda := rest } v _ hb,
    writeIdle_of_ignoresWrites _ v _ hi]

theorem readOnlyOffset_lt {off : Nat} (h : readOnlyOffset off) : off < 512 := by
  unfold readOnlyOffset at h
  omega

theorem reservedOffset_lt {off : Nat} (h : reservedOffset off) : off < 512 := by
  unfold reservedOffset at h
  omega

/-- A named register at a read-only offset ignores writes. -/
theorem Reg.ignoresWrites_of_readOnlyOffset (r : Reg) (h : readOnlyOffset r.offset) : r.ignoresWrites = true := by
  cases r with
  | id | errcode | ctrLo | ctrHi | codeVal | code _ | digest _ | reserved => rfl
  | _ =>
    simp only [readOnlyOffset, Reg.offset] at h
    omega

/-- No named register stands at a reserved offset. -/
theorem Reg.eq_reserved_of_reservedOffset (r : Reg) (h : reservedOffset r.offset) : r = .reserved := by
  cases r with
  | reserved => rfl
  | _ =>
    simp only [reservedOffset, Reg.offset] at h
    omega

theorem regAt_ignoresWrites_of_readOnlyOffset (off : Nat) (h4 : off % 4 = 0) (h : readOnlyOffset off) :
    (regAt off).ignoresWrites = true := by
  rcases regAt_cases off h4 (readOnlyOffset_lt h) with e | e
  · rw [e]
    rfl
  · exact Reg.ignoresWrites_of_readOnlyOffset _ (e.symm ▸ h)

theorem regAt_reservedOffset (off : Nat) (h4 : off % 4 = 0) (h : reservedOffset off) : regAt off = .reserved := by
  rcases regAt_cases off h4 (reservedOffset_lt h) with e | e
  · exact e
  · exact Reg.eq_reserved_of_reservedOffset _ (e.symm ▸ h)

/-- Settles O18: a read-only offset names a register that ignores writes. -/
theorem readOnlyWritesAreIgnored : Obligations.ReadOnlyWritesAreIgnored :=
  fun s rest off v ha h4 ho hr hb => step_write_ignored s rest off v ha h4 (readOnlyOffset_lt ho) hr hb
    (regAt_ignoresWrites_of_readOnlyOffset off h4 ho)

/-- Settles O19: a reserved offset names the register `reserved`, which reads zero and ignores writes. -/
theorem reservedOffsetsReadZeroAndIgnoreWrites : Obligations.ReservedOffsetsReadZeroAndIgnoreWrites := by
  intro s rest off v h4 ho hr
  have hw := reservedOffset_lt ho
  have hreg := regAt_reservedOffset off h4 ho
  refine ⟨?_, fun ha hb => step_write_ignored s rest off v ha h4 hw hr hb ?_,
    fun ha hb => step_write_busy s rest off v ha h4 hw hr hb⟩
  · rw [hostReads_legal s off h4 hw hr, hreg]
    rfl
  · rw [hreg]
    rfl

/-! ### Accesses that stop (20_memory.md R60, R71, 70_reset_and_hazards.md R300) -/

theorem hostAccess_notOneAlignedWord (s : State) (off size : Nat) (k : Reg → State) (h : size ≠ 4 ∨ off % 4 ≠ 0) :
    hostAccess s off size k = .refused (.notOneAlignedWord off size) :=
  if_pos h

theorem hostAccess_outsideWindow (s : State) (off : Nat) (k : Reg → State) (h4 : off % 4 = 0) (hw : 512 ≤ off) :
    hostAccess s off 4 k = .fault (.outsideWindow off) := by
  simp [hostAccess, h4, hw]

theorem hostAccess_duringReset (s : State) (off : Nat) (k : Reg → State) (h4 : off % 4 = 0) (hw : off < 512)
    (hr : s.rst = true) : hostAccess s off 4 k = .fault .accessDuringReset := by
  simp [hostAccess, h4, hw, hr]

/-- The step that takes a read or a write is that access. -/
theorem step_access (s : State) (rest : List Event) (off size : Nat) (v : Word)
    (ha : s.agenda = .read off size :: rest ∨ s.agenda = .write off size v :: rest) :
    ∃ k, step s = hostAccess { s with agenda := rest } off size k := by
  rcases ha with ha | ha
  · exact ⟨fun r => { s with agenda := rest, rdata := regRead { s with agenda := rest } r }, step_cons s _ rest ha⟩
  · exact ⟨_, step_cons s _ rest ha⟩

/-- Settles O20: a read and a write are one access, which has the three grounds to stop. -/
theorem accessesThatStop : Obligations.AccessesThatStop := by
  intro s rest off size v ha
  obtain ⟨k, e⟩ := step_access s rest off size v ha
  rw [e]
  refine ⟨hostAccess_notOneAlignedWord _ off size k, ?_, ?_⟩
  · rintro rfl h4 hw
    exact hostAccess_outsideWindow _ off k h4 hw
  · rintro rfl ⟨h4, hw⟩ hr
    exact hostAccess_duringReset _ off k h4 hw hr

/-! ### Writes of DATA and CAND (10_state.md R32, R34) -/

/-- DATA_LO, DATA_HI and CAND0 to CAND2, the registers that store a written word whole. -/
def Reg.isDataOrCand : Reg → Bool
  | .dataLo | .dataHi | .cand _ => true
  | .id | .cmd | .status | .errcode | .ie | .cfg | .period | .candLen | .ctrLo | .ctrHi | .codeVal | .code _ | .keylen
  | .digest _ | .keyw _ | .reserved => false

theorem exists_dataOrCand_offset (off : Nat)
    (h : off = 0x020 ∨ off = 0x024 ∨ off = 0x030 ∨ off = 0x034 ∨ off = 0x038) :
    ∃ r : Reg, r.isDataOrCand = true ∧ off = r.offset := by
  rcases h with rfl | rfl | rfl | rfl | rfl
  · exact ⟨.dataLo, rfl, rfl⟩
  · exact ⟨.dataHi, rfl, rfl⟩
  · exact ⟨.cand 0, rfl, rfl⟩
  · exact ⟨.cand 1, rfl, rfl⟩
  · exact ⟨.cand 2, rfl, rfl⟩

/-- Such a write changes DATA and CAND at most. -/
theorem writeIdle_dataOrCand_frame (s : State) (v : Word) (r : Reg) (h : r.isDataOrCand = true) :
    writeIdle s v r = { s with
      dataLo := (writeIdle s v r).dataLo, dataHi := (writeIdle s v r).dataHi, cand := (writeIdle s v r).cand } := by
  cases r with
  | dataLo | dataHi | cand _ => rfl
  | _ => cases h

theorem regRead_writeIdle_same (s : State) (v : Word) (r : Reg) (h : r.isDataOrCand = true) :
    regRead (writeIdle s v r) r = v := by
  cases r with
  | dataLo => rfl
  | dataHi => rfl
  | cand k => exact wordOf_setWord_same s.cand k.val v (by omega)
  | _ => cases h

/-- Every other register reads as before; of the words of CAND, those the write does not store. -/
theorem regRead_writeIdle_other (s : State) (v : Word) (r r' : Reg) (h : r.isDataOrCand = true) (hne : r' ≠ r) :
    regRead (writeIdle s v r) r' = regRead s r' := by
  cases r with
  | dataLo =>
    cases r' with
    | dataLo => exact absurd rfl hne
    | _ => simp only [writeIdle, regRead, State.statusWord, State.keyValid]
  | dataHi =>
    cases r' with
    | dataHi => exact absurd rfl hne
    | _ => simp only [writeIdle, regRead, State.statusWord, State.keyValid]
  | cand k =>
    cases r' with
    | cand j =>
      have hjk : j.val ≠ k.val := fun e => hne (congrArg Reg.cand (Fin.ext e))
      exact wordOf_setWord_other s.cand k.val j.val v (by omega) hjk
    | _ => simp only [writeIdle, regRead, State.statusWord, State.keyValid]
  | _ => cases h

/-- Which events are to come is in no register. -/
theorem regRead_agenda (s : State) (rest : List Event) (r : Reg) :
    regRead { s with agenda := rest } r = regRead s r := by
  cases r <;> rfl

/-- Settles O12: the register written reads back, another offset names another register, and the rest is the write's
frame. -/
theorem operandWritesReadBack : Obligations.OperandWritesReadBack := by
  intro s rest off v ha hr hb ho
  obtain ⟨r, hop, rfl⟩ := exists_dataOrCand_offset off ho
  have hframe := writeIdle_dataOrCand_frame { s with agenda := rest } v r hop
  have hrst : (writeIdle { s with agenda := rest } v r).rst = false := by rw [hframe, hr]
  have hne : r ≠ .reserved := by
    rintro rfl
    cases hop
  refine ⟨writeIdle { s with agenda := rest } v r, step_writeIdle s rest r v ha hr hb, ?_, ?_, hframe⟩
  · rw [hostReads_offset _ hrst, regRead_writeIdle_same _ v r hop]
  · rintro off' ⟨h4, hw⟩ hoff
    have hreg : regAt off' ≠ r := fun e => hoff (eq_offset_of_regAt off' r h4 hw e hne)
    rw [hostReads_legal _ off' h4 hw hrst, hostReads_legal s off' h4 hw hr, regRead_writeIdle_other _ v r _ hop hreg,
      regRead_agenda]

/-! ### The busy period (20_memory.md R66, R75, 70_reset_and_hazards.md R320) -/

/-- What accesses and the platform can change while a command is in progress: BUSYERR, `time_in` and the word last
read. -/
def State.disturbed (s : State) (busyErr : Bool) (timeIn : DWord) (rdata : Word) : State :=
  { s with busyErr := busyErr, timeIn := timeIn, rdata := rdata }

/-- One event of the busy period. -/
theorem step_duringBusy (s : State) (e : Event) (rest : List Event) (ha : s.agenda = e :: rest) (hr : s.rst = false)
    (hb : s.busy = true) (hl : e.legal = true) (hd : e.duringBusy = true) :
    ∃ n w, step s = .next (State.disturbed { s with agenda := rest } (s.busyErr || e.isWrite) n w) := by
  cases e with
  | read off size =>
    simp only [Event.legal, Bool.and_eq_true, beq_iff_eq, decide_eq_true_eq] at hl
    obtain ⟨⟨rfl, h4⟩, hw⟩ := hl
    refine ⟨s.timeIn, regRead s (regAt off), ?_⟩
    rw [step_read s rest off ha h4 hw hr, Event.isWrite, Bool.or_false]
    rfl
  | write off size v =>
    simp only [Event.legal, Bool.and_eq_true, beq_iff_eq, decide_eq_true_eq] at hl
    obtain ⟨⟨rfl, h4⟩, hw⟩ := hl
    refine ⟨s.timeIn, s.rdata, ?_⟩
    rw [step_write_busy s rest off v ha h4 hw hr hb, Event.isWrite, Bool.or_true]
    rfl
  | timeIn n =>
    refine ⟨n, s.rdata, ?_⟩
    rw [step_timeIn s rest n ha, Event.isWrite, Bool.or_false]
    rfl
  | engine => cases hd
  | rst b => cases hd

theorem runSteps_one (s : State) : runSteps 1 s = step s := by
  rw [runSteps_succ]
  cases step s <;> rfl

/-- The events of a busy period, then the engine's turn, are the engine's turn at the disturbed state. -/
theorem runSteps_duringBusy (es : List Event) (s : State) (ha : s.agenda = es) (hr : s.rst = false) (hb : s.busy = true)
    (hes : ∀ e ∈ es, e.legal = true ∧ e.duringBusy = true) :
    ∃ n w, runSteps (es.length + 1) s =
      engineTurn (State.disturbed { s with agenda := [] } (s.busyErr || es.any Event.isWrite) n w) := by
  induction es generalizing s with
  | nil =>
    refine ⟨s.timeIn, s.rdata, ?_⟩
    rw [List.length_nil, runSteps_one, step_engine s [] (.inl ⟨ha, rfl⟩), List.any_nil, Bool.or_false]
    rfl
  | cons e rest ih =>
    obtain ⟨⟨hl, hd⟩, hrest⟩ := List.forall_mem_cons.mp hes
    obtain ⟨n, w, hstep⟩ := step_duringBusy s e rest ha hr hb hl hd
    obtain ⟨n', w', hrun⟩ := ih (State.disturbed { s with agenda := rest } (s.busyErr || e.isWrite) n w) rfl hr hb hrest
    refine ⟨n', w', ?_⟩
    rw [List.length_cons, runSteps_succ_next _ _ _ hstep, hrun, List.any_cons, ← Bool.or_assoc]
    rfl

/-- A command neither reads nor writes BUSYERR, `time_in` and the word last read. -/
theorem exec_disturbed (i : Instr) (s u : State) (h : exec i s = .next u) (b : Bool) (n : DWord) (w : Word) :
    exec i (s.disturbed b n w) = .next (u.disturbed b n w) := by
  rcases exec_cases i s with ⟨gen, rfl, hk, e⟩ | ⟨gen, rfl, hk, e⟩ | ⟨dflt, rfl, e⟩ | ⟨hi, hs, e⟩ |
    ⟨dflt, key, _, _, rfl, hs, rfl, rfl, e⟩ | ⟨dflt, key, _, _, rfl, hs, rfl, rfl, e⟩ |
    ⟨dflt, key, _, rfl, hs, rfl, e⟩ <;> cases e.symm.trans h
  · exact if_pos hk
  · exact if_neg (Bool.eq_false_iff.mp hk)
  · rfl
  · exact exec_without_secret i (s.disturbed b n w) hi hs
  · exact execHmac_some dflt (s.disturbed b n w) key hs
  · exact execCode_some dflt (s.disturbed b n w) key hs
  · exact execVerify_some dflt (s.disturbed b n w) key hs

theorem completion_ok (s : State) (i : Instr) (h : decode s.cmdLatch = .ok i) : completion s = exec i s := by
  rw [completion, h]

theorem completion_error (s : State) (r : DecodeError) (h : decode s.cmdLatch = .error r) :
    completion s = .next (s.failWith .illegalCommand) := by
  rw [completion, h]

/-- A completion ends the command, legal or not, and a disturbance passes through it. -/
theorem completion_disturbed (s : State) : ∃ u, completion s = .next u ∧ u.busy = false ∧ u.done = true ∧
    ∀ b n w, completion (s.disturbed b n w) = .next (u.disturbed b n w) := by
  cases hd : decode s.cmdLatch with
  | ok i =>
    obtain ⟨u, hu⟩ := exec_next i s
    have hframe := exec_frame i s u hu
    refine ⟨u, (completion_ok s i hd).trans hu, congrArg State.busy hframe, congrArg State.done hframe, ?_⟩
    exact fun b n w => (completion_ok (s.disturbed b n w) i hd).trans (exec_disturbed i s u hu b n w)
  | error r =>
    exact ⟨s.failWith .illegalCommand, completion_error s r hd, rfl, rfl,
      fun b n w => completion_error (s.disturbed b n w) r hd⟩

theorem engineTurn_busy (s : State) (hb : s.busy = true) (hr : s.rst = false) : engineTurn s = completion s := by
  simp [engineTurn, hb, hr]

/-- So the engine's turn during a busy period has the outcome of the undisturbed command, disturbed alike. -/
theorem engineTurn_disturbed (s : State) (hb : s.busy = true) (hr : s.rst = false) :
    ∃ u, engineTurn s = .next u ∧ u.busy = false ∧ u.done = true ∧
      ∀ b n w, engineTurn (s.disturbed b n w) = .next (u.disturbed b n w) := by
  obtain ⟨u, hu, hbusy, hdone, hdist⟩ := completion_disturbed s
  exact ⟨u, (engineTurn_busy s hb hr).trans hu, hbusy, hdone,
    fun b n w => (engineTurn_busy (s.disturbed b n w) hb hr).trans (hdist b n w)⟩

/-- Settles O57: the busy period only disturbs the state, and the completion at its end passes the disturbance on. -/
theorem busyPeriodDoesNotChangeTheOutcome : Obligations.BusyPeriodDoesNotChangeTheOutcome := by
  intro s hr hb hes
  obtain ⟨n, w, hrun⟩ := runSteps_duringBusy s.agenda s rfl hr hb hes
  obtain ⟨u, hu, hbusy, hdone, hdist⟩ := engineTurn_disturbed { s with agenda := [] } hb hr
  exact ⟨u.disturbed (s.busyErr || s.agenda.any Event.isWrite) n w, u,
    (step_engine { s with agenda := [] } [] (.inl ⟨rfl, rfl⟩)).trans hu, hrun.trans (hdist _ n w), rfl, hbusy, hdone⟩

end Sys2Proof.Machine

namespace Sys2Proof

/-! ### The fields of a command word (30_encoding.md R91 to R93) -/

/-- The opcode of a command, by the table of R93. -/
def Instr.opcode : Instr → BitVec 8
  | .keyset _ => 0x01#8
  | .slice _ => 0x02#8
  | .hmac _ => 0x03#8
  | .code _ => 0x04#8
  | .verify _ => 0x05#8

/-- The flag of a command, GEN or DFLT (R91, R92). -/
def Instr.flag : Instr → Bool
  | .keyset gen => gen
  | .slice dflt => dflt
  | .hmac dflt => dflt
  | .code dflt => dflt
  | .verify dflt => dflt

/-- OP, the flag and Z are all of a word. -/
theorem eq_of_fields_eq (v w : Word) (hop : opField v = opField w) (hflag : flagField v = flagField w)
    (hz : zField v = zField w) : v = w := by
  have hop' := congrArg BitVec.toNat hop
  have hz' := congrArg BitVec.toNat hz
  simp only [opField, zField, BitVec.extractLsb'_toNat, Nat.shiftRight_eq_div_pow] at hop' hz'
  have hflag' : v.toNat / 2 ^ 8 % 2 = 1 ↔ w.toNat / 2 ^ 8 % 2 = 1 := by
    simpa [flagField, BitVec.getLsbD, Nat.testBit_eq_decide_div_mod_eq] using hflag
  apply BitVec.eq_of_toNat_eq
  omega

theorem encode_fields (i : Instr) :
    opField (encode i) = i.opcode ∧ flagField (encode i) = i.flag ∧ zField (encode i) = 0#23 := by
  rcases i with f | f | f | f | f <;> cases f <;> exact ⟨rfl, rfl, rfl⟩

/-- What a decoded word holds: Z is clear, and the branch taken names the opcode. -/
theorem fields_of_decode (w : Word) (i : Instr) (h : decode w = .ok i) :
    opField w = i.opcode ∧ flagField w = i.flag ∧ zField w = 0#23 := by
  unfold decode at h
  split_ifs at h with hz h1 h2 h3 h4 h5
  all_goals
    cases h
    exact ⟨‹_›, rfl, not_not.mp hz⟩

theorem decode_encode (i : Instr) : decode (encode i) = .ok i := by
  rcases i with f | f | f | f | f <;> cases f <;> rfl

/-- Nothing decodes but the words of commands: the fields of a decoded word are those of its command's word. -/
theorem decode_eq_ok_iff (w : Word) (i : Instr) : decode w = .ok i ↔ w = encode i := by
  constructor
  · intro h
    obtain ⟨hop, hflag, hz⟩ := fields_of_decode w i h
    obtain ⟨hop', hflag', hz'⟩ := encode_fields i
    exact eq_of_fields_eq w (encode i) (hop.trans hop'.symm) (hflag.trans hflag'.symm) (hz.trans hz'.symm)
  · rintro rfl
    exact decode_encode i

/-! ### The ten legal words (30_encoding.md R93, R95) -/

theorem encode_mem_tenWords (i : Instr) : encode i ∈ tenWords := by
  rcases i with f | f | f | f | f <;> cases f <;> decide

/-- The ten words decode, one by one. -/
theorem exists_decode_of_mem_tenWords (w : Word) (h : w ∈ tenWords) : ∃ i, decode w = .ok i := by
  simp only [tenWords, List.mem_cons, List.not_mem_nil, or_false] at h
  rcases h with rfl | rfl | rfl | rfl | rfl | rfl | rfl | rfl | rfl | rfl <;> exact ⟨_, rfl⟩

theorem mem_tenWords_iff (w : Word) : w ∈ tenWords ↔ ∃ i, decode w = .ok i := by
  refine ⟨exists_decode_of_mem_tenWords w, ?_⟩
  rintro ⟨i, hi⟩
  rw [(decode_eq_ok_iff w i).mp hi]
  exact encode_mem_tenWords i

/-- The numbers with an assigned opcode and Z clear are those of the ten words. -/
theorem wordWellFormed_iff_mem_tenWords (w : Word) : wordWellFormed w = true ↔ w ∈ tenWords := by
  simp only [wordWellFormed, opcodeAssigned, reservedClear, tenWords, Bool.and_eq_true, decide_eq_true_eq,
    List.mem_cons, List.not_mem_nil, or_false, ← BitVec.toNat_inj, BitVec.toNat_ofNat]
  omega

theorem decode_error_of_not_mem_tenWords (w : Word) (h : w ∉ tenWords) : ∃ r, decode w = .error r := by
  cases hd : decode w with
  | ok i => exact absurd ((mem_tenWords_iff w).mpr ⟨i, hd⟩) h
  | error r => exact ⟨r, rfl⟩

/-- Settles O1: the decoder inverts the encoder. -/
theorem encodedCommandDecodesToItself : Obligations.EncodedCommandDecodesToItself :=
  fun i _ => decode_encode i

/-- Settles O2: a decoded word has the fields of its command's word, and the two lists of legal words are one. -/
theorem exactlyTenWordsAreCommands : Obligations.ExactlyTenWordsAreCommands :=
  ⟨fun w i => (decode_eq_ok_iff w i).mp, fun w => (mem_tenWords_iff w).symm,
    fun w => (wordWellFormed_iff_mem_tenWords w).trans (mem_tenWords_iff w)⟩

/-- Settles O3: each of the words is the encoder's for its command. -/
theorem sampleWordsDecode : Obligations.SampleWordsDecode :=
  ⟨decode_encode (.keyset true), decode_encode (.slice false), decode_encode (.hmac false),
    decode_encode (.code false), decode_encode (.verify true)⟩

end Sys2Proof

namespace Sys2Proof.Machine

/-! ### Acceptance and completion as steps (30_encoding.md R96, R97) -/

/-- The step that takes a write to CMD while idle is acceptance. -/
theorem step_accept (s : State) (rest : List Event) (w : Word) (ha : s.agenda = .write 0x004 4 w :: rest)
    (hr : s.rst = false) (hb : s.busy = false) : step s = .next (State.accept { s with agenda := rest } w) :=
  step_writeIdle s rest .cmd w ha hr hb

/-- The engine's turn during a command is the completion of the latched word. -/
theorem step_completion (s : State) (rest : List Event) (hm : engineMoves s rest) (hr : s.rst = false)
    (hb : s.busy = true) : step s = completion { s with agenda := rest } :=
  (step_engine s rest hm).trans (engineTurn_busy { s with agenda := rest } hb hr)

/-- A word written to CMD, then the engine's turn: the completion of that word. -/
theorem runSteps_accept_completion (s : State) (rest : List Event) (w : Word)
    (ha : s.agenda = .write 0x004 4 w :: .engine :: rest) (hr : s.rst = false) (hb : s.busy = false) :
    runSteps 2 s = completion (State.accept { s with agenda := rest } w) := by
  rw [runSteps_succ_next s _ 1 (step_accept s (.engine :: rest) w ha hr hb), runSteps_one]
  exact step_completion _ rest (.inr rfl) hr rfl

/-- The completion of an illegal word fails with IllegalCommand (30_encoding.md R95). -/
theorem completion_illegal (s : State) (h : s.cmdLatch ∉ tenWords) :
    completion s = .next (s.failWith .illegalCommand) := by
  obtain ⟨r, hd⟩ := decode_error_of_not_mem_tenWords s.cmdLatch h
  exact completion_error s r hd

/-- Settles O4: the engine's turn completes the latched word, which decodes. -/
theorem stepRunsTheLatchedCommand : Obligations.StepRunsTheLatchedCommand := by
  intro s rest i hm hr hb hd
  exact (step_completion s rest hm hr hb).trans (completion_ok { s with agenda := rest } i hd)

/-- Settles O5: acceptance does not look at the word, and its completion is that of an illegal word. -/
theorem illegalWordFailsWithCodeFive : Obligations.IllegalWordFailsWithCodeFive := by
  constructor
  · intro s rest hm hr hb hw
    exact (step_completion s rest hm hr hb).trans (completion_illegal { s with agenda := rest } hw)
  · intro s rest w ha hr hb hw
    refine ⟨step_accept s (.engine :: rest) w ha hr hb, ?_⟩
    exact (runSteps_accept_completion s rest w ha hr hb).trans
      (completion_illegal (State.accept { s with agenda := rest } w) hw)

/-- Settles O6: the write to CMD is acceptance, field by field. -/
theorem acceptanceLatchesAndClears : Obligations.AcceptanceLatchesAndClears :=
  step_accept

/-- Settles O7: the latch holds the command's word, which decodes to the command. -/
theorem commandWriteThenEngineRunsIt : Obligations.CommandWriteThenEngineRunsIt := by
  intro s rest i ha hr hb
  exact (runSteps_accept_completion s rest (encode i) ha hr hb).trans
    (completion_ok (State.accept { s with agenda := rest } (encode i)) i (decode_encode i))

/-- Settles O23: every completion ends idle and done, and its frame keeps IE and the rest of the agenda. -/
theorem everyCompletionEndsIdleAndDone : Obligations.EveryCompletionEndsIdleAndDone := by
  intro s rest hm hr hb
  obtain ⟨t, ht, hbusy, hdone, -⟩ := engineTurn_disturbed { s with agenda := rest } hb hr
  have hframe := engineTurn_frame { s with agenda := rest } t ht
  have hie : t.ie = s.ie := by rw [hframe]
  have hagenda : t.agenda = rest := by rw [hframe]
  refine ⟨t, (step_engine s rest hm).trans ht, hbusy, hdone, hagenda, ?_⟩
  rw [State.irq, hie, hdone, Bool.and_true]

end Sys2Proof.Machine

namespace Sys2Proof.Machine

/-! ### KEYSET and the secret (40_key.md R121 to R125) -/

/-- A refused length: the scrubbing, then InvalidSecretLength. -/
theorem exec_keyset_refused (s : State) (gen : Bool) (h : badKeyLength gen s.keylen.toNat) :
    exec (.keyset gen) s = .next (s.scrub.failWith .invalidSecretLength) :=
  if_pos ((keyLengthRefused_iff gen s.keylen.toNat).mpr h)

/-- Any other length: the scrubbing, and the first KEYLEN staged bytes as the secret. -/
theorem exec_keyset_stored (s : State) (gen : Bool) (h : ¬ badKeyLength gen s.keylen.toNat) :
    exec (.keyset gen) s = .next { s.scrub with secret := some (s.stage.toList.take s.keylen.toNat) }.finish :=
  if_neg (mt (keyLengthRefused_iff gen s.keylen.toNat).mp h)

/-- Either way KEYSET leaves the staging buffer and KEYLEN zero. -/
theorem exec_keyset_scrubs (s t : State) (gen : Bool) (h : exec (.keyset gen) s = .next t) :
    t.stage = zeroBytes 128 ∧ t.keylen = 0#8 := by
  rcases execKeyset_cases gen s with ⟨_, e⟩ | ⟨_, e⟩ <;>
  · cases e.symm.trans h
    exact ⟨rfl, rfl⟩

/-- A command that changes the secret is a KEYSET of a legal length. -/
theorem exec_changes_secret (i : Instr) (s t : State) (h : exec i s = .next t) (hne : t.secret ≠ s.secret) :
    ∃ gen, i = .keyset gen ∧ ¬ badKeyLength gen s.keylen.toNat ∧
      t.secret = some (s.stage.toList.take s.keylen.toNat) := by
  cases i with
  | keyset gen =>
    by_cases hk : badKeyLength gen s.keylen.toNat
    · cases (exec_keyset_refused s gen hk).symm.trans h
      exact absurd rfl hne
    · cases (exec_keyset_stored s gen hk).symm.trans h
      exact ⟨gen, rfl, hk, rfl⟩
  | _ => exact absurd (exec_keeps_secret_of_ne_keyset _ s t h nofun).1 hne

/-- No write of the host reaches the secret. -/
theorem regWrite_secret (s : State) (v : Word) (r : Reg) : (regWrite s v r).secret = s.secret := by
  rcases regWrite_cases s v r with ⟨_, e⟩ | ⟨_, ⟨_, e⟩ | ⟨_, e⟩ | ⟨_, e⟩ | ⟨_, _, e⟩ | ⟨_, _, e⟩ | ⟨_, e⟩ | ⟨_, e⟩ |
    ⟨_, e⟩ | ⟨_, e⟩ | ⟨_, _, e⟩ | ⟨_, e⟩ | ⟨_, _, e⟩ | e⟩ <;> simp [e]

/-- Settles O24: KEYSET's stored case; the buffer has 128 bytes, so the first KEYLEN of them are KEYLEN bytes. -/
theorem keysetStoresTheStagedBytes : Obligations.KeysetStoresTheStagedBytes := by
  intro s gen h
  have hle : s.keylen.toNat ≤ 128 := Nat.le_of_not_lt fun hlt => h (.inr (.inl hlt))
  refine ⟨s.stage.toList.take s.keylen.toNat, exec_keyset_stored s gen h, ?_, fun i hi => ?_⟩
  · rw [List.length_take, Vector.length_toList, Nat.min_eq_left hle]
  · rw [List.getElem?_take_of_lt hi, Vector.getElem?_toList]
    exact Vector.getElem?_eq_getElem i.isLt

/-- Settles O25: KEYSET's refused case, field by field. -/
theorem keysetRefusesBadLengths : Obligations.KeysetRefusesBadLengths :=
  exec_keyset_refused

/-- Settles O26: the first KEYSET leaves KEYLEN = 0, acceptance keeps it, and the second refuses the empty secret. -/
theorem secondKeysetWithoutReloadFails : Obligations.SecondKeysetWithoutReloadFails := by
  intro s gen gen' w
  obtain ⟨t, ht⟩ := exec_next (.keyset gen) s
  have hlen : (t.accept w).keylen.toNat = 0 := congrArg BitVec.toNat (exec_keyset_scrubs s t gen ht).2
  exact ⟨t, (t.accept w).scrub.failWith .invalidSecretLength, ht, exec_keyset_refused (t.accept w) gen' (.inl hlen),
    rfl, rfl, rfl⟩

/-- Settles O48: of the steps only the engine's turn and a change of `rst` reach the secret, and of the commands only a
KEYSET of a legal length. -/
theorem secretChangesOnlyByKeysetOrReset : Obligations.SecretChangesOnlyByKeysetOrReset := by
  intro s t h hne
  rcases step_cases s t h with ⟨rest, hm, he⟩ | ⟨_, _, _, _, _, _, rfl⟩ | ⟨off, v, rest, _, _, _, _, rfl⟩ |
    ⟨_, _, _, rfl⟩ | ⟨b, rest, ha, rfl⟩
  · rcases engineTurn_cases { s with agenda := rest } with ⟨_, e⟩ | ⟨hb, hr, i, hd, e⟩ | ⟨_, _, _, e⟩
    · cases e.symm.trans he
      exact absurd rfl hne
    · obtain ⟨gen, rfl, hk, hkey⟩ := exec_changes_secret i _ t (e.symm.trans he) hne
      exact .inr ⟨hb, hr, ⟨rest, hm⟩, gen, hd, hk, hkey⟩
    · cases e.symm.trans he
      exact absurd rfl hne
  · exact absurd rfl hne
  · exact absurd (regWrite_secret { s with agenda := rest } v (regAt off)) hne
  · exact absurd rfl hne
  · rcases driveRst_cases { s with agenda := rest } b with ⟨_, _, e⟩ | ⟨_, e⟩ <;> rw [e] at hne ⊢
    · exact absurd rfl hne
    · exact .inl ⟨rfl, b, rest, ha⟩

/-- Settles O55: the completion is KEYSET, which scrubs, another command, which keeps KEYSET's operands, or the failure
of an illegal word, which keeps them too. -/
theorem onlyKeysetScrubsAndAlwaysDoes : Obligations.OnlyKeysetScrubsAndAlwaysDoes := by
  intro s t rest hm hr hb h
  have hc : completion { s with agenda := rest } = .next t := (step_completion s rest hm hr hb).symm.trans h
  constructor
  · rintro ⟨gen, hd⟩
    have he := (completion_ok { s with agenda := rest } (.keyset gen) hd).symm.trans hc
    obtain ⟨hstage, hkeylen⟩ := exec_keyset_scrubs _ t gen he
    exact ⟨fun i => hstage ▸ zeroBytes_getElem 128 i.val i.isLt, hkeylen⟩
  · intro hnk
    cases hd : decode s.cmdLatch with
    | ok i =>
      have he := (completion_ok { s with agenda := rest } i hd).symm.trans hc
      exact (exec_keeps_secret_of_ne_keyset i _ t he fun gen hi => hnk ⟨gen, hi ▸ hd⟩).2
    | error r =>
      cases (completion_error { s with agenda := rest } r hd).symm.trans hc
      exact ⟨rfl, rfl⟩

end Sys2Proof.Machine

namespace Sys2Proof.Machine

/-! ### The time slice and SLICE (41_counter.md R141, R144, R146) -/

/-- The time slice is `k` exactly in the `k`-th period interval. -/
theorem timeslice_toNat_eq_iff (s : State) (hp : 1 ≤ s.period.toNat) (ts : DWord) (k : Nat) :
    (timeslice s ts).toNat = k ↔ k * s.period.toNat ≤ ts.toNat ∧ ts.toNat < (k + 1) * s.period.toNat := by
  rw [timeslice_toNat, Nat.div_eq_iff hp, Nat.add_one_mul]
  omega

theorem timeslice_eq_iff_same_interval (s : State) (hp : 1 ≤ s.period.toNat) (ts ts' : DWord) :
    timeslice s ts = timeslice s ts' ↔ ∃ k : Nat,
      (k * s.period.toNat ≤ ts.toNat ∧ ts.toNat < (k + 1) * s.period.toNat) ∧
      (k * s.period.toNat ≤ ts'.toNat ∧ ts'.toNat < (k + 1) * s.period.toNat) := by
  simp only [← timeslice_toNat_eq_iff s hp, ← BitVec.toNat_inj]
  exact ⟨fun h => ⟨_, h, rfl⟩, fun ⟨_, h, h'⟩ => h.trans h'.symm⟩

/-- The last timestamp of the interval before the boundary `k * PERIOD`, and the first of the one after it. -/
theorem timeslice_at_boundary (s : State) (hp : 1 ≤ s.period.toNat) (k : Nat) (hk : 1 ≤ k)
    (hlt : k * s.period.toNat < 2 ^ 64) :
    (timeslice s (BitVec.ofNat 64 (k * s.period.toNat - 1))).toNat = k - 1 ∧
    (timeslice s (BitVec.ofNat 64 (k * s.period.toNat))).toNat = k := by
  rw [timeslice_toNat_eq_iff s hp, timeslice_toNat_eq_iff s hp, BitVec.toNat_ofNat, BitVec.toNat_ofNat,
    Nat.mod_eq_of_lt hlt, Nat.mod_eq_of_lt (Nat.lt_of_le_of_lt (Nat.sub_le _ _) hlt), Nat.sub_add_cancel hk]
  have hpred := Nat.sub_one_mul k s.period.toNat
  have hsucc := Nat.add_one_mul k s.period.toNat
  have hpos := Nat.mul_le_mul hk hp
  omega

theorem timeslice_period_one (s : State) (hp : s.period.toNat = 1) (ts : DWord) : timeslice s ts = ts := by
  apply BitVec.eq_of_toNat_eq
  rw [timeslice_toNat, hp, Nat.div_one]

theorem timeslice_zero (s : State) : timeslice s 0#64 = 0#64 := by
  apply BitVec.eq_of_toNat_eq
  rw [timeslice_toNat]
  exact Nat.zero_div _

theorem sliceTimestamp_toNat (s : State) (dflt : Bool) :
    (sliceTimestamp s dflt).toNat = if dflt then s.nowLatch.toNat else dataNumber s := by
  cases dflt
  · exact s.data_toNat
  · rfl

theorem exec_slice (s : State) (dflt : Bool) :
    exec (.slice dflt) s = .next (s.setCtr (timeslice s (sliceTimestamp s dflt))).finish := rfl

/-- The register pair that `x[CTR] <- c` writes, as a number (10_state.md R35). -/
theorem State.setCtr_halves_toNat (s : State) (c : DWord) :
    c.toNat = (s.setCtr c).ctrHi.toNat * 2 ^ 32 + (s.setCtr c).ctrLo.toNat := by
  rw [← State.ctr_toNat, State.setCtr_ctr]

/-- Settles O27: SLICE's next state holds the time slice of its timestamp in CTR. -/
theorem sliceWritesTheFloorQuotient : Obligations.SliceWritesTheFloorQuotient := by
  intro s dflt hp
  obtain ⟨hlo, hhi⟩ := (timeslice_toNat_eq_iff s hp (sliceTimestamp s dflt) _).mp rfl
  exact ⟨_, _, _, exec_slice s dflt, s.setCtr_halves_toNat _, sliceTimestamp_toNat s dflt, hlo, hhi, rfl⟩

/-- Settles O28: each clause is the interval of one time slice, or a value at its end. -/
theorem timesliceIsTheFloorQuotient : Obligations.TimesliceIsTheFloorQuotient := by
  intro s hp
  exact ⟨fun ts => (timeslice_toNat_eq_iff s hp ts _).mp rfl, timeslice_eq_iff_same_interval s hp,
    timeslice_at_boundary s hp, timeslice_period_one s, timeslice_zero s⟩

/-! ### Big-endian serialisation (00_scope.md R10, 41_counter.md R145) -/

/-- The last byte is the least significant one; the bytes before it serialise the rest. -/
theorem serBe_succ (v n : Nat) : serBe v (n + 1) = serBe (v / 256) n ++ [BitVec.ofNat 8 v] := by
  rw [serBe, List.range_succ, List.map_append, serBe]
  congr 1
  · apply List.map_congr_left
    intro j hj
    have hjn : j < n := List.mem_range.mp hj
    have hshift : 8 * (n + 1 - 1 - j) = 8 + 8 * (n - 1 - j) := by omega
    rw [hshift, Nat.shiftRight_add, Nat.shiftRight_eq_div_pow v 8]
  · simp

/-- Read most significant byte first, `n` bytes are the number modulo `256^n`. -/
theorem serBe_foldl (v n : Nat) : (serBe v n).foldl (fun acc b => acc * 256 + b.toNat) 0 = v % 256 ^ n := by
  induction n generalizing v with
  | zero => exact (Nat.mod_one v).symm
  | succ n ih =>
    rw [serBe_succ, List.foldl_append, ih, List.foldl_cons, List.foldl_nil, BitVec.toNat_ofNat,
      pow_succ' 256 n, Nat.mod_mul]
    omega

/-- Byte `j` of the hashed counter is its byte lane `7 - j`. -/
theorem serCounter_getElem? (c : DWord) (j : Nat) (h : j < 8) :
    (serCounter c)[j]? = some (c.extractLsb' (8 * (7 - j)) 8) :=
  serBe_getElem? c.toNat 8 j h

/-- Settles O44: the serialisation of `c`, which is below `256^8`, in eight bytes. -/
theorem serialisedCounterIsBigEndian : Obligations.SerialisedCounterIsBigEndian := by
  intro c
  exact ⟨serBe_length c.toNat 8, (serBe_foldl c.toNat 8).trans (Nat.mod_eq_of_lt c.isLt), serCounter_getElem? c⟩

end Sys2Proof.Machine

namespace Sys2Proof.Machine

/-! ### Digest sizes (42_sha.md R160) -/

/-- Settles O37: each hash writes out its chaining words, whatever the blocks before made of them. -/
theorem digestsHaveTheirSize : Obligations.DigestsHaveTheirSize := by
  intro alg msg
  cases alg with
  | sha1 => exact Sha1Words.bytes_length _
  | sha256 => exact Sha2Words.bytes_length _ 4
  | sha512 => exact Sha2Words.bytes_length _ 8

/-! ### Padding (42_sha.md R162) -/

theorem blockSize_pos (alg : Alg) : 0 < blockSize alg := by
  cases alg <;> decide

theorem padZeros_lt {b : Nat} (hb : 0 < b) (f l : Nat) : padZeros b f l < b :=
  Nat.mod_lt _ hb

/-- The zeros are what the partial last block lacks of a whole one. -/
theorem padZeros_of_mod_pos {b f l : Nat} (hb : 0 < b) (hr : 0 < (l + 1 + f) % b) :
    (l + 1 + f) % b + padZeros b f l = b := by
  have hlt := Nat.mod_lt (l + 1 + f) hb
  rw [padZeros, Nat.mod_eq_of_lt (by omega : b - (l + 1 + f) % b < b)]
  omega

theorem padZeros_of_mod_zero {b f l : Nat} (hr : (l + 1 + f) % b = 0) : padZeros b f l = 0 := by
  rw [padZeros, hr, Nat.sub_zero, Nat.mod_self]

theorem padZeros_fills {b : Nat} (hb : 0 < b) (f l : Nat) : (l + 1 + padZeros b f l + f) % b = 0 := by
  rw [Nat.add_right_comm, ← Nat.mod_add_mod]
  rcases Nat.eq_zero_or_pos ((l + 1 + f) % b) with hr | hr
  · rw [hr, padZeros_of_mod_zero hr, Nat.zero_mod]
  · rw [padZeros_of_mod_pos hb hr, Nat.mod_self]

/-- Fewer zeros leave the last block partial: it neither loses its first bytes nor reaches its end. -/
theorem padZeros_minimal {b f l z : Nat} (hb : 0 < b) (hz : z < padZeros b f l) : (l + 1 + z + f) % b ≠ 0 := by
  rw [Nat.add_right_comm, ← Nat.mod_add_mod]
  rcases Nat.eq_zero_or_pos ((l + 1 + f) % b) with hr | hr
  · exact absurd (padZeros_of_mod_zero hr ▸ hz) (Nat.not_lt_zero z)
  · have hfill := padZeros_of_mod_pos hb hr
    rw [Nat.mod_eq_of_lt (by omega)]
    omega

theorem blocks_length (b : Nat) (m : List Byte) : (blocks b m).length = m.length / b := by
  simp [blocks]

/-- The message, 0x80 and the length field take `⌈(l + 1 + f) / b⌉` blocks. -/
theorem blocks_pad_length {b : Nat} (hb : 0 < b) (f : Nat) (m : List Byte) :
    (blocks b (pad b f m)).length = (m.length + f + b) / b := by
  have hlt := padZeros_lt hb f m.length
  obtain ⟨q, hq⟩ := Nat.dvd_of_mod_eq_zero (padZeros_fills hb f m.length)
  have hceil : m.length + f + b = b - 1 - padZeros b f m.length + b * q := by omega
  rw [blocks_length, pad_length, hq, Nat.mul_div_cancel_left q hb, hceil, Nat.add_mul_div_left _ _ hb,
    Nat.div_eq_of_lt (by omega), Nat.zero_add]

/-- The inner message of HMAC (a block and the counter) and its outer one (a block and a digest) take two blocks. -/
theorem blocks_pad_length_of_hmac_message (alg : Alg) (m : List Byte)
    (h : m.length = blockSize alg + 8 ∨ m.length = blockSize alg + digestSize alg) :
    (blocks (blockSize alg) (pad (blockSize alg) (lengthField alg) m)).length = 2 := by
  rw [blocks_pad_length (blockSize_pos alg)]
  cases alg <;> simp only [blockSize, lengthField, digestSize] at h ⊢ <;> omega

theorem blocks_pad_length_of_ne_sha512 (alg : Alg) (m : List Byte) (h : alg ≠ .sha512) :
    (blocks (blockSize alg) (pad (blockSize alg) (lengthField alg) m)).length = (m.length + 72) / 64 := by
  rw [blocks_pad_length (blockSize_pos alg)]
  cases alg with
  | sha1 => rfl
  | sha256 => rfl
  | sha512 => exact absurd rfl h

/-- Settles O36: `z` is `padZeros`, and the block counts are ceilings. -/
theorem paddingIsMinimal : Obligations.PaddingIsMinimal := by
  intro alg m
  have hb := blockSize_pos alg
  have hfills := padZeros_fills hb (lengthField alg) m.length
  refine ⟨_, rfl, hfills, (pad_length _ _ m).symm ▸ hfills, fun z' => padZeros_minimal hb, ?_, ?_⟩
  · rintro (hinner | houter | ⟨halg, hkey⟩)
    · exact blocks_pad_length_of_hmac_message alg m (.inl hinner)
    · exact blocks_pad_length_of_hmac_message alg m (.inr houter)
    · rw [blocks_pad_length_of_ne_sha512 alg m halg]
      omega
  · rintro ⟨halg, hkey⟩
    rw [blocks_pad_length_of_ne_sha512 alg m halg]
    omega

/-! ### Message schedules (42_sha.md R166, R173, R183) -/

/-- Read oldest first, a list agrees with each of its suffixes. -/
theorem getD_reverse_of_suffix {α : Type} {s u : List α} (h : s <:+ u) {i : Nat} (hi : i < s.length) (d : α) :
    u.reverse.getD i d = s.getD (s.length - 1 - i) d := by
  obtain ⟨p, rfl⟩ := h
  rw [List.reverse_append, List.getD_append _ _ _ _ (by rwa [List.length_reverse]), List.getD_reverse i hi]

/-- `extend n` puts `n` further words in front of a list, newest first, each computed by `next` from all before it. -/
structure IsExtension {α : Type} (next : List α → α) (extend : Nat → List α → List α) : Prop where
  zero : ∀ l, extend 0 l = l
  succ : ∀ n l, extend (n + 1) l = extend n (next l :: l)

namespace IsExtension

variable {α : Type} {next : List α → α} {extend : Nat → List α → List α}

theorem suffix (he : IsExtension next extend) (n : Nat) (l : List α) : l <:+ extend n l := by
  induction n generalizing l with
  | zero => rw [he.zero]
  | succ n ih =>
    rw [he.succ]
    exact (List.suffix_cons _ l).trans (ih _)

/-- Every new word stands in front of the words it was computed from. -/
theorem next_suffix (he : IsExtension next extend) {n i : Nat} (hi : i < n) (l : List α) :
    ∃ s, next s :: s <:+ extend n l ∧ s.length = l.length + i := by
  induction n generalizing i l with
  | zero => exact absurd hi (Nat.not_lt_zero i)
  | succ n ih =>
    rw [he.succ]
    cases i with
    | zero => exact ⟨l, he.suffix n _, rfl⟩
    | succ i =>
      obtain ⟨s, hs, hlen⟩ := ih (Nat.lt_of_succ_lt_succ hi) (next l :: l)
      exact ⟨s, hs, by rw [hlen, List.length_cons]; omega⟩

/-- The schedule begins with the words it was given. -/
theorem getD_of_lt (he : IsExtension next extend) (n : Nat) {l : List α} {t : Nat} (ht : t < l.length) (d : α) :
    (extend n l.reverse).reverse.getD t d = l.getD t d := by
  obtain ⟨p, hp⟩ := he.suffix n l.reverse
  rw [← hp, List.reverse_append, List.reverse_reverse, List.getD_append _ _ _ _ ht]

/-- Word `t` is computed from the words before it, of which word `t - (k + 1)` stands at index `k`. -/
theorem getD_of_ge (he : IsExtension next extend) {n : Nat} {l : List α} {t : Nat} (hl : l.length ≤ t)
    (ht : t < l.length + n) (d : α) :
    ∃ s, (extend n l.reverse).reverse.getD t d = next s ∧
      ∀ k, k < t → s.getD k d = (extend n l.reverse).reverse.getD (t - (k + 1)) d := by
  obtain ⟨s, hs, hlen⟩ := he.next_suffix (by omega : t - l.length < n) l.reverse
  rw [List.length_reverse, Nat.add_sub_cancel' hl] at hlen
  subst hlen
  refine ⟨s, ?_, fun k hk => ?_⟩
  · rw [getD_reverse_of_suffix hs (Nat.lt_succ_self _)]
    simp
  · rw [getD_reverse_of_suffix ((List.suffix_cons _ s).trans hs) (by omega)]
    congr 1
    omega

end IsExtension

/-- The next word of SHA-1's schedule (42_sha.md R166). -/
def sha1Next (w : List Word) : Word :=
  (w.getD 2 0#32 ^^^ w.getD 7 0#32 ^^^ w.getD 13 0#32 ^^^ w.getD 15 0#32).rotateLeft 1

theorem sha1Extend_isExtension : IsExtension sha1Next sha1Extend :=
  ⟨fun _ => rfl, fun _ _ => rfl⟩

/-- The next word of a SHA-2 schedule (42_sha.md R173, R183). -/
def sha2Next {w : Nat} (ssig0 ssig1 : BitVec w → BitVec w) (l : List (BitVec w)) : BitVec w :=
  ssig1 (l.getD 1 0) + l.getD 6 0 + ssig0 (l.getD 14 0) + l.getD 15 0

theorem sha2Extend_isExtension {w : Nat} (ssig0 ssig1 : BitVec w → BitVec w) :
    IsExtension (sha2Next ssig0 ssig1) (sha2Extend ssig0 ssig1) :=
  ⟨fun _ => rfl, fun _ _ => rfl⟩

theorem blockWords32_length (m : List Byte) : (blockWords32 m).length = 16 := by
  simp [blockWords32]

theorem blockWords64_length (m : List Byte) : (blockWords64 m).length = 16 := by
  simp [blockWords64]

theorem blockWords32_getD (m : List Byte) {t : Nat} (ht : t < 16) (d : Word) :
    (blockWords32 m).getD t d = be32 m (4 * t) := by
  simp [blockWords32, ht]

theorem blockWords64_getD (m : List Byte) {t : Nat} (ht : t < 16) (d : DWord) :
    (blockWords64 m).getD t d = be64 m (8 * t) := by
  simp [blockWords64, ht]

/-- The clauses of R166, for sixteen words extended by `n`. -/
theorem sha1Extend_schedule {n : Nat} {l : List Word} {w : Nat → Word}
    (hw : ∀ t, w t = (sha1Extend n l.reverse).reverse.getD t 0#32) (hlen : l.length = 16) :
    (sha1Extend n l.reverse).reverse.length = 16 + n ∧ (∀ t, t < 16 → w t = l.getD t 0#32) ∧
    ∀ t, 16 ≤ t → t < 16 + n → w t = (w (t - 3) ^^^ w (t - 8) ^^^ w (t - 14) ^^^ w (t - 16)).rotateLeft 1 := by
  have he := sha1Extend_isExtension
  refine ⟨?_, fun t ht => (hw t).trans (he.getD_of_lt n (hlen ▸ ht) _), fun t hl ht => ?_⟩
  · rw [List.length_reverse, sha1Extend_length, List.length_reverse, hlen]
  · obtain ⟨s, hnew, hold⟩ := he.getD_of_ge (hlen ▸ hl) (hlen ▸ ht) 0#32
    rw [hw t, hnew, sha1Next, hold 2 (by omega), hold 7 (by omega), hold 13 (by omega), hold 15 (by omega)]
    simp only [hw]

/-- The clauses of R173 and R183, for sixteen words of either width extended by `n`. -/
theorem sha2Extend_schedule {b : Nat} (ssig0 ssig1 : BitVec b → BitVec b) {n : Nat} {l : List (BitVec b)}
    {w : Nat → BitVec b} (hw : ∀ t, w t = (sha2Extend ssig0 ssig1 n l.reverse).reverse.getD t 0)
    (hlen : l.length = 16) :
    (sha2Extend ssig0 ssig1 n l.reverse).reverse.length = 16 + n ∧ (∀ t, t < 16 → w t = l.getD t 0) ∧
    ∀ t, 16 ≤ t → t < 16 + n → w t = ssig1 (w (t - 2)) + w (t - 7) + ssig0 (w (t - 15)) + w (t - 16) := by
  have he := sha2Extend_isExtension ssig0 ssig1
  refine ⟨?_, fun t ht => (hw t).trans (he.getD_of_lt n (hlen ▸ ht) _), fun t hl ht => ?_⟩
  · rw [List.length_reverse, sha2Extend_length, List.length_reverse, hlen]
  · obtain ⟨s, hnew, hold⟩ := he.getD_of_ge (hlen ▸ hl) (hlen ▸ ht) 0
    rw [hw t, hnew, sha2Next, hold 1 (by omega), hold 6 (by omega), hold 14 (by omega), hold 15 (by omega)]
    simp only [hw]

/-- Settles O39: 64 words extend the sixteen message words. -/
theorem sha1ScheduleIsTheRecurrence : Obligations.Sha1ScheduleIsTheRecurrence := by
  intro m w hw
  obtain ⟨hlen, hfirst, hrec⟩ := sha1Extend_schedule hw (blockWords32_length m)
  exact ⟨hlen, fun t ht => (hfirst t ht).trans (blockWords32_getD m ht _), hrec⟩

/-- Settles O40: 48 words (SHA-256) or 64 words (SHA-512) extend the sixteen message words. -/
theorem sha2SchedulesAreTheRecurrence : Obligations.Sha2SchedulesAreTheRecurrence := by
  constructor
  · intro m w hw
    obtain ⟨hlen, hfirst, hrec⟩ := sha2Extend_schedule ssig0w32 ssig1w32 hw (blockWords32_length m)
    exact ⟨hlen, fun t ht => (hfirst t ht).trans (blockWords32_getD m ht _), hrec⟩
  · intro m w hw
    obtain ⟨hlen, hfirst, hrec⟩ := sha2Extend_schedule ssig0w64 ssig1w64 hw (blockWords64_length m)
    exact ⟨hlen, fun t ht => (hfirst t ht).trans (blockWords64_getD m ht _), hrec⟩

end Sys2Proof.Machine

namespace Sys2Proof.Machine

/-! ### The key block (43_hmac.md R201, R202) -/

theorem hashOf_length (alg : Alg) (m : List Byte) : (hashOf alg m).length = digestSize alg := by
  rw [digestsHaveTheirSize alg m]
  cases alg <;> rfl

theorem digestSize_le_blockSize (alg : Alg) : digestSize alg ≤ blockSize alg := by
  cases alg <;> decide

theorem hashOf_length_le_blockSize (alg : Alg) (m : List Byte) : (hashOf alg m).length ≤ blockSize alg :=
  (hashOf_length alg m).trans_le (digestSize_le_blockSize alg)

/-- The digest that replaces a long key is a short key, so it is not hashed again. -/
theorem hmacKeyBlock_eq_hashed (alg : Alg) (key : List Byte) (h : blockSize alg < key.length) :
    hmacKeyBlock alg key = hmacKeyBlock alg (hashOf alg key) := by
  rw [hmacKeyBlock_of_lt alg key h, hmacKeyBlock_of_le alg _ (hashOf_length_le_blockSize alg key)]

theorem hmacKeyBlock_length (alg : Alg) (key : List Byte) : (hmacKeyBlock alg key).length = blockSize alg := by
  have hshort (k : List Byte) (hk : k.length ≤ blockSize alg) : (hmacKeyBlock alg k).length = blockSize alg := by
    rw [hmacKeyBlock_of_le alg k hk, List.length_append, List.length_replicate, Nat.add_sub_cancel' hk]
  rcases Nat.lt_or_ge (blockSize alg) key.length with hlong | hle
  · rw [hmacKeyBlock_eq_hashed alg key hlong]
    exact hshort _ (hashOf_length_le_blockSize alg key)
  · exact hshort key hle

theorem hmacKeyBlock_getElem? (alg : Alg) (key : List Byte) (hk : key.length ≤ blockSize alg) (j : Nat)
    (hj : j < blockSize alg) :
    (hmacKeyBlock alg key)[j]? = if h : j < key.length then some key[j] else some 0x00#8 := by
  rw [hmacKeyBlock_of_le alg key hk]
  split
  case isTrue h => rw [List.getElem?_append_left h, List.getElem?_eq_getElem h]
  case isFalse h =>
    have hpad : j - key.length < blockSize alg - key.length := by omega
    rw [List.getElem?_append_right (Nat.le_of_not_lt h), List.getElem?_replicate, if_pos hpad]

/-- Zeros that end a short key are zeros of the padding. -/
theorem hmacKeyBlock_append_zeros (alg : Alg) (key : List Byte) (z : Nat) (h : key.length + z ≤ blockSize alg) :
    hmacKeyBlock alg (key ++ List.replicate z 0x00#8) = hmacKeyBlock alg key := by
  have hlen : (key ++ List.replicate z 0x00#8).length = key.length + z := by
    rw [List.length_append, List.length_replicate]
  have hpad : z + (blockSize alg - (key.length + z)) = blockSize alg - key.length := by omega
  rw [hmacKeyBlock_of_le alg _ (hlen.trans_le h), hmacKeyBlock_of_le alg key (by omega), hlen, List.append_assoc,
    List.replicate_append_replicate, hpad]

/-- Of the storable keys only those of 65 bytes and more under a block of 64 bytes are hashed first. -/
theorem blockSize_lt_iff (alg : Alg) (n : Nat) (hn : n ≤ 128) :
    blockSize alg < n ↔ (alg = .sha1 ∨ alg = .sha256) ∧ 65 ≤ n := by
  cases alg with
  | sha1 => simp [blockSize, Nat.lt_iff_add_one_le]
  | sha256 => simp [blockSize, Nat.lt_iff_add_one_le]
  | sha512 => simp [blockSize, hn]

/-! ### The keyed hash (43_hmac.md R201, R202) -/

/-- The keyed hash sees of its key only the key block. -/
theorem hmac_congr_keyBlock (alg : Alg) (key key' msg : List Byte)
    (h : hmacKeyBlock alg key = hmacKeyBlock alg key') : hmac alg key msg = hmac alg key' msg := by
  rw [hmac, hmac, h]

theorem hmac_length (alg : Alg) (key msg : List Byte) : (hmac alg key msg).length = digestSize alg :=
  hashOf_length alg _

/-- Settles O38: the length is that of the outer hash; the other clauses are equal key blocks. -/
theorem hmacLengthAndTrailingZeroKeys : Obligations.HmacLengthAndTrailingZeroKeys := by
  refine ⟨fun alg key msg => digestsHaveTheirSize alg _, fun alg key msg z hz => ?_, fun alg key msg hlong => ?_⟩
  · exact hmac_congr_keyBlock alg _ _ msg (hmacKeyBlock_append_zeros alg key z hz)
  · exact hmac_congr_keyBlock alg _ _ msg (hmacKeyBlock_eq_hashed alg key hlong)

/-- Settles O60: `k0` is the key block, whose bytes are those of the key, or of its hash, and then zeros. -/
theorem hmacIsTheStandardConstruction : Obligations.HmacIsTheStandardConstruction := by
  intro alg key msg
  have hlen := hmacKeyBlock_length alg key
  refine ⟨hmacKeyBlock alg key, (hmacKeyBlock alg key).map (· ^^^ 0x36#8), (hmacKeyBlock alg key).map (· ^^^ 0x5C#8), _,
    hlen, (List.length_map _).trans hlen, (List.length_map _).trans hlen, fun hle => hmacKeyBlock_getElem? alg key hle,
    fun hlong => ?_, fun j _ => ⟨List.getElem?_map, List.getElem?_map⟩, rfl, hashOf_length alg _, rfl,
    hmac_length alg key msg, blockSize_lt_iff alg key.length⟩
  rw [hmacKeyBlock_eq_hashed alg key hlong]
  exact hmacKeyBlock_getElem? alg _ (hashOf_length_le_blockSize alg key)

/-! ### The command HMAC (43_hmac.md R205) -/

/-- The hashed counter as a number, for each mode and flag (41_counter.md R142, R143). -/
theorem resolveCounter_toNat (s : State) (dflt : Bool) : (resolveCounter s dflt).toNat = counterNumber s dflt := by
  cases hmode : s.cfg.mode with
  | hotp =>
    rw [resolveCounter_hotp s dflt hmode]
    cases dflt
    · simp only [counterNumber, hmode, resolveData_false, State.data_toNat, dataNumber]
    · simp only [counterNumber, hmode, resolveData_hotp s hmode, BitVec.toNat_ofNat, Nat.zero_mod]
  | totp =>
    rw [resolveCounter_totp s dflt hmode, timeslice_toNat]
    cases dflt
    · simp only [counterNumber, hmode, resolveData_false, State.data_toNat, dataNumber]
    · simp only [counterNumber, hmode, resolveData_totp s hmode]

/-- Every byte of a group is the string's, or beyond its end the byte that stood there. -/
theorem overwriteFront_bytes {n : Nat} (b : Vector Byte n) (l : List Byte) (i : Fin n) :
    (i.val < l.length → l[i.val]? = some (overwriteFront b l)[i]) ∧
    (l.length ≤ i.val → (overwriteFront b l)[i] = b[i]) := by
  refine ⟨fun hlt => ?_, overwriteFront_getElem_ge b l i.val i.isLt⟩
  rw [List.getElem?_eq_getElem hlt]
  exact congrArg some (overwriteFront_getElem_lt b l i.val i.isLt hlt).symm

/-- Settles O29: HMAC's next state holds the counter in CTR and the digest at the front of DIGEST. -/
theorem hmacExposesTheDigest : Obligations.HmacExposesTheDigest := by
  intro s dflt key hkey
  exact ⟨_, resolveCounter s dflt, _, execHmac_some dflt s key hkey, resolveCounter_toNat s dflt, rfl,
    hmac_length _ _ _, s.setCtr_ctr _, overwriteFront_bytes s.digest _, rfl⟩

end Sys2Proof.Machine

namespace Sys2Proof.Machine

/-! ### Dynamic truncation (44_code.md R220) -/

/-- The low nibble of the last byte, as a number. -/
theorem truncOffset_eq_mod (d : List Byte) : truncOffset d = (d.getD (d.length - 1) 0#8).toNat % 16 := by
  rw [truncOffset, BitVec.toNat_and]
  exact Nat.and_two_pow_sub_one_eq_mod _ 4

/-- The mask keeps the low 31 bits. -/
theorem dynTrunc_toNat (d : List Byte) : (dynTrunc d).toNat = (be32 d (truncOffset d)).toNat % 2 ^ 31 := by
  rw [dynTrunc, BitVec.toNat_and]
  exact Nat.and_two_pow_sub_one_eq_mod _ 31

theorem getElem?_eq_some_getD (d : List Byte) (i : Nat) (h : i < d.length) : d[i]? = some (d.getD i 0#8) := by
  rw [List.getD_eq_getElem d 0#8 h, List.getElem?_eq_getElem h]

/-- Settles O41: an offset of at most 15 leaves the four bytes inside 20, and the mask acts on the first of them. -/
theorem truncationReadsFourBytes : Obligations.TruncationReadsFourBytes := by
  intro d hlen
  have hoff := truncOffset_eq_mod d
  have hnibble := Nat.mod_lt (d.getD (d.length - 1) 0#8).toNat (by decide : 0 < 16)
  refine ⟨truncOffset d, _, _, _, _, _, ?_, hoff, by omega, getElem?_eq_some_getD d _ (by omega),
    getElem?_eq_some_getD d _ (by omega), getElem?_eq_some_getD d _ (by omega), getElem?_eq_some_getD d _ (by omega),
    ?_, dynTrunc_toNat_lt d⟩
  · rw [List.getLast?_eq_getElem?]
    exact getElem?_eq_some_getD d _ (by omega)
  · have h1 := (d.getD (truncOffset d + 1) 0#8).isLt
    have h2 := (d.getD (truncOffset d + 2) 0#8).isLt
    have h3 := (d.getD (truncOffset d + 3) 0#8).isLt
    rw [dynTrunc_toNat, be32_toNat]
    omega

/-! ### The code value (44_code.md R221) -/

/-- Settles O42: `2^31` is below `10^10`, and the quotient is the number of moduli taken off. -/
theorem codeValueIsReducedExactly : Obligations.CodeValueIsReducedExactly := by
  intro p digits hp
  exact ⟨Nat.mod_eq_of_lt (hp.trans (by decide)), Nat.mod_lt p (Nat.pow_pos (by decide)),
    p / 10 ^ digits, (Nat.div_add_mod' p _).symm⟩

/-- The value of a code is that of 31 bits, reduced. -/
theorem otp_fst_lt (alg : Alg) (key : List Byte) (digits : Nat) (c : DWord) : (otp alg key digits c).1 < 2 ^ 31 :=
  (Nat.mod_le _ _).trans_lt (dynTrunc_toNat_lt _)

/-- So CODE_VAL holds it whole (10_state.md R36). -/
theorem codeVal_otp_toNat (alg : Alg) (key : List Byte) (digits : Nat) (c : DWord) :
    (BitVec.ofNat 32 (otp alg key digits c).1).toNat = (otp alg key digits c).1 := by
  rw [BitVec.toNat_ofNat]
  exact Nat.mod_eq_of_lt ((otp_fst_lt alg key digits c).trans (by decide))

/-! ### The code string (44_code.md R222) -/

/-- An ASCII digit fits a byte. -/
theorem digitByte_toNat (n : Nat) : (BitVec.ofNat 8 (0x30 + n % 10)).toNat = 0x30 + n % 10 := by
  rw [BitVec.toNat_ofNat]
  omega

/-- The last character is the least significant digit; the characters before it format the rest. -/
theorem fmtDec_succ (v n : Nat) : fmtDec v (n + 1) = fmtDec (v / 10) n ++ [BitVec.ofNat 8 (0x30 + v % 10)] := by
  rw [fmtDec, List.range_succ, List.map_append, fmtDec]
  congr 1
  · apply List.map_congr_left
    intro j hj
    have hjn : j < n := List.mem_range.mp hj
    have hexp : n + 1 - 1 - j = n - 1 - j + 1 := by omega
    rw [hexp, pow_succ', Nat.div_div_eq_div_mul]
  · simp

/-- Read as a decimal number, `n` characters are the number modulo `10^n`. -/
theorem fmtDec_foldl (v n : Nat) :
    (fmtDec v n).foldl (fun acc b => acc * 10 + (b.toNat - 0x30)) 0 = v % 10 ^ n := by
  induction n generalizing v with
  | zero => exact (Nat.mod_one v).symm
  | succ n ih =>
    rw [fmtDec_succ, List.foldl_append, ih, List.foldl_cons, List.foldl_nil, digitByte_toNat, pow_succ' 10 n,
      Nat.mod_mul]
    omega

/-- Settles O43: the digits read back the value modulo `10^digits`, which it is below. -/
theorem formattedCodeSpellsTheValue : Obligations.FormattedCodeSpellsTheValue := by
  intro v digits hv
  refine ⟨fmtDec_length v digits, fun b hb => ?_, (fmtDec_foldl v digits).trans (Nat.mod_eq_of_lt hv)⟩
  obtain ⟨j, hj, rfl⟩ := List.getElem_of_mem hb
  exact fmtDec_getElem_digit v digits j hj

/-- A formatted value at the front of a group: its digits, then the bytes that stood there (44_code.md R225). -/
theorem overwriteFront_fmtDec {n : Nat} (b : Vector Byte n) (v digits : Nat) (j : Fin n) :
    (j.val < digits →
      (overwriteFront b (fmtDec v digits))[j].toNat = 0x30 + v / 10 ^ (digits - 1 - j.val) % 10) ∧
    (digits ≤ j.val → (overwriteFront b (fmtDec v digits))[j] = b[j]) := by
  obtain ⟨hfront, htail⟩ := overwriteFront_bytes b (fmtDec v digits) j
  rw [fmtDec_length] at hfront htail
  refine ⟨fun hj => ?_, htail⟩
  have hbyte := hfront hj
  rw [fmtDec_getElem? v digits j.val hj] at hbyte
  rw [← Option.some.inj hbyte]
  exact digitByte_toNat _

/-! ### The command CODE (44_code.md R223, R225) -/

/-- Settles O30: CODE's next state holds the counter in CTR, and the value and the string of its code. -/
theorem codeWritesTheOneTimeCode : Obligations.CodeWritesTheOneTimeCode := by
  intro s dflt key hkey _
  exact ⟨_, resolveCounter s dflt, _, execCode_some dflt s key hkey, resolveCounter_toNat s dflt, rfl,
    s.setCtr_ctr _, codeVal_otp_toNat _ _ _ _, overwriteFront_fmtDec s.code _ _, rfl⟩

/-- CODE does not see the events to come. -/
theorem exec_code_with_agenda (s t : State) (dflt : Bool) (h : exec (.code dflt) s = .next t) (es : List Event) :
    exec (.code dflt) { s with agenda := es } = .next { t with agenda := es } := by
  rcases Option.eq_none_or_eq_some s.secret with hs | ⟨key, hs⟩
  · cases (exec_without_secret (.code dflt) s rfl hs).symm.trans h
    exact exec_without_secret (.code dflt) { s with agenda := es } rfl hs
  · cases (execCode_some dflt s key hs).symm.trans h
    exact execCode_some dflt { s with agenda := es } key hs

/-- Acceptance undoes all that a command other than KEYSET did: it clears the results and sets the flags anew. -/
theorem accept_after_exec (i : Instr) (s t : State) (h : exec i s = .next t) (hi : ∀ gen, i ≠ .keyset gen)
    (w : Word) : t.accept w = s.accept w := by
  obtain ⟨hsecret, hstage, hkeylen⟩ := exec_keeps_secret_of_ne_keyset i s t h hi
  rw [exec_frame i s t h, hsecret, hstage, hkeylen]
  rfl

/-- A run goes on from the state its first part reached. -/
theorem runSteps_add_of_next (j k : Nat) (s t : State) (h : runSteps j s = .next t) :
    runSteps (j + k) s = runSteps k t := by
  induction j generalizing s with
  | zero =>
    cases h
    rw [Nat.zero_add]
  | succ j ih =>
    rw [runSteps_succ] at h
    cases hstep : step s with
    | next u =>
      rw [hstep] at h
      rw [Nat.succ_add, runSteps_succ_next s u _ hstep]
      exact ih u h
    | fault r => simp [hstep] at h
    | refused r => simp [hstep] at h

/-- CODE accepted again where it ended gives the state where it ended, but for the events to come. -/
theorem exec_code_accepted_again (s t : State) (dflt : Bool) (w : Word)
    (h : exec (.code dflt) (s.accept w) = .next t) (es : List Event) :
    exec (.code dflt) (State.accept { t with agenda := es } w) = .next { t with agenda := es } := by
  have hagain : t.accept w = s.accept w := accept_after_exec (.code dflt) (s.accept w) t h nofun w
  have haccept : State.accept { t with agenda := es } w = { s.accept w with agenda := es } :=
    congrArg (fun u : State => { u with agenda := es }) hagain
  rw [haccept]
  exact exec_code_with_agenda (s.accept w) t dflt h es

/-- Settles O35: CODE ends idle and out of reset, so its second acceptance is one, and gives what the first gave. -/
theorem codeTwiceGivesTheSameCode : Obligations.CodeTwiceGivesTheSameCode := by
  intro s dflt rest ha hr hb
  have hrun := commandWriteThenEngineRunsIt s _ (.code dflt) ha hr hb
  obtain ⟨t, ht⟩ := exec_next (.code dflt) _
  have hfirst : runSteps 2 s = .next t := hrun.trans ht
  have hframe := exec_frame (.code dflt) _ t ht
  have hsecond : runSteps 2 t = .next { t with agenda := rest } :=
    (commandWriteThenEngineRunsIt t rest (.code dflt) (congrArg State.agenda hframe)
      ((congrArg State.rst hframe).trans hr) (congrArg State.busy hframe)).trans
      (exec_code_accepted_again _ t dflt _ ht rest)
  exact ⟨t, _, hfirst, (runSteps_add_of_next 2 2 s t hfirst).trans hsecond, rfl⟩

end Sys2Proof.Machine

namespace Sys2Proof.Machine

/-! ### The comparator (45_verify.md R241) -/

/-- A byte as a length: it is `n` exactly when its number is. -/
theorem eq_ofNat_iff_toNat_eq (b : Byte) (n : Nat) (h : n < 256) : b = BitVec.ofNat 8 n ↔ b.toNat = n := by
  rw [← BitVec.toNat_inj, BitVec.toNat_ofNat, Nat.mod_eq_of_lt h]

/-- One position of the comparator: inside the string and the register group no default byte is read. -/
theorem getD_eq_toList_getD_iff {n : Nat} (str : List Byte) (b : Vector Byte n) (j : Fin n) (h : j.val < str.length) :
    str.getD j.val 0#8 = b.toList.getD j.val 0#8 ↔ str[j.val]? = some b[j] := by
  rw [getElem?_eq_some_getD str j.val h, toList_getD b j.val j.isLt, Option.some_inj]
  rfl

/-- Settles O45: the length difference is zero, and so is the byte difference at every position of the string. -/
theorem comparatorIsStringEquality : Obligations.ComparatorIsStringEquality := by
  intro s str n hn hlen
  have hposition (j : Fin 12) (hj : j.val < n) := getD_eq_toList_getD_iff str s.cand j (hj.trans_eq hlen.symm)
  rw [ctEqual_iff, eq_ofNat_iff_toNat_eq s.candLen n (by omega)]
  refine and_congr_right fun _ => ⟨fun h j hj => ?_, fun h j hj => ?_⟩
  · exact (hposition j hj).mp (h j.val hj)
  · have hj12 : j < 12 := by omega
    exact (hposition ⟨j, hj12⟩ hj).mpr (h ⟨j, hj12⟩ hj)

/-- A comparison with the code of one counter is string equality with that code. -/
theorem candidateMatches_iff (s : State) (key : List Byte) (c : DWord) (hd : s.cfg.digits.toNat ≤ 10) :
    candidateMatches s key c = true ↔ candidateIs s (codeString s key c) s.cfg.digits.toNat :=
  comparatorIsStringEquality s _ _ hd (otp_snd_length _ _ _ c)

/-! ### The verdict in each mode (45_verify.md R243, R244) -/

/-- The data operand as a number: the flag chooses between DATA and the default of the mode (41_counter.md R142). -/
theorem resolveData_toNat (s : State) (dflt : Bool) :
    (resolveData s dflt).toNat = if dflt then (resolveData s true).toNat else dataNumber s := by
  cases dflt
  · exact s.data_toNat
  · rfl

/-- In TOTP mode the verdict is that some counter within ADJ of the time slice has the candidate as its code. -/
theorem verdict_totp_iff (s : State) (key : List Byte) (dflt : Bool) (h : s.cfg.mode = .totp)
    (hd : s.cfg.digits.toNat ≤ 10) :
    verdict s key dflt = true ↔ ∃ (i : Int) (c : DWord), -(s.cfg.adj.toNat : Int) ≤ i ∧ i ≤ (s.cfg.adj.toNat : Int) ∧
      (c.toNat : Int) = ((timeslice s (resolveData s dflt)).toNat : Int) + i ∧
      candidateIs s (codeString s key c) s.cfg.digits.toNat := by
  simp only [verdict_totp s key dflt h, List.any_eq_true, mem_windowCounters, candidateMatches_iff s key _ hd]
  constructor
  · rintro ⟨c, ⟨i, hlo, hhi, hc⟩, hcand⟩
    exact ⟨i, c, hlo, hhi, hc, hcand⟩
  · rintro ⟨i, c, hlo, hhi, hc, hcand⟩
    exact ⟨c, ⟨i, hlo, hhi, hc⟩, hcand⟩

/-! ### The command VERIFY (45_verify.md R245, R246) -/

/-- Settles O31: the verdict of HOTP mode is the one comparison, with the code of the data operand. -/
theorem verifyHotpComparesOnce : Obligations.VerifyHotpComparesOnce := by
  intro s dflt key hkey hmode hd
  have hcounter : (resolveData s dflt).toNat = if dflt then 0 else dataNumber s := by
    rw [resolveData_toNat, resolveData_hotp s hmode]
    rfl
  have hmatch := candidateMatches_iff s key (resolveData s dflt) hd
  rw [← verdict_hotp s key dflt hmode] at hmatch
  exact ⟨_, resolveData s dflt, execVerify_some dflt s key hkey, hcounter, hmatch, rfl⟩

/-- Settles O32: the verdict of TOTP mode, around the time slice of the data operand. -/
theorem verifyTotpAcceptsExactlyTheWindow : Obligations.VerifyTotpAcceptsExactlyTheWindow := by
  intro s dflt key hkey hmode hd
  have hslice : (timeslice s (resolveData s dflt)).toNat =
      (if dflt then s.nowLatch.toNat else dataNumber s) / s.period.toNat := by
    rw [timeslice_toNat, resolveData_toNat, resolveData_totp s hmode]
  exact ⟨_, _, execVerify_some dflt s key hkey, hslice, verdict_totp_iff s key dflt hmode hd, rfl⟩

/-- CODE leaves its code string at the front of CODE. -/
theorem exec_code_code (s t : State) (dflt : Bool) (key : List Byte) (hkey : s.secret = some key)
    (h : exec (.code dflt) s = .next t) :
    t.code = overwriteFront s.code (codeString s key (resolveCounter s dflt)) := by
  cases (execCode_some dflt s key hkey).symm.trans h
  rfl

/-- A string at the front of CAND, with its length declared, is the candidate whatever bytes follow it. -/
theorem candidateIs_of_cand_eq_overwriteFront (s : State) (b : Vector Byte 12) (str : List Byte)
    (hcand : s.cand = overwriteFront b str) (hlen : s.candLen.toNat = str.length) : candidateIs s str str.length := by
  refine ⟨hlen, fun j hj => ?_⟩
  rw [hcand]
  exact (overwriteFront_bytes b str j).1 hj

/-- Of the configuration a code string sees only ALG and DIGITS (44_code.md R223). -/
theorem codeString_congr (s s' : State) (key : List Byte) (c : DWord) (halg : s.cfg.alg = s'.cfg.alg)
    (hdigits : s.cfg.digits = s'.cfg.digits) : codeString s key c = codeString s' key c := by
  rw [codeString, codeString, halg, hdigits]

/-- Settles O34: the counter of the generated code is the one at distance `k` in VERIFY's window. -/
theorem codeWithinTheWindowIsAccepted : Obligations.CodeWithinTheWindowIsAccepted := by
  intro g g' v dflt key k hgkey hgmode hgen hvkey hvmode halg hdigits hd hcand hlen hlo hhi hk
  obtain ⟨t, slice, ht, rfl, hmatched, hframe⟩ := verifyTotpAcceptsExactlyTheWindow v dflt key hvkey hvmode hd
  have hcounter : (resolveCounter g false).toNat = dataNumber g := by
    rw [resolveCounter_hotp g false hgmode]
    exact g.data_toNat
  have hstring := codeString_congr v g key (resolveCounter g false) halg hdigits
  have hlength : (codeString v key (resolveCounter g false)).length = v.cfg.digits.toNat := otp_snd_length _ _ _ _
  have hshown : v.cand = overwriteFront g.code (codeString v key (resolveCounter g false)) := by
    rw [hcand, hstring]
    exact exec_code_code g g' false key hgkey hgen
  have hcandidate := candidateIs_of_cand_eq_overwriteFront v g.code _ hshown (hlen.trans hlength.symm)
  rw [hlength] at hcandidate
  have hposition := (congrArg Nat.cast hcounter).trans hk
  have herr : t.err = v.err := by rw [hframe]
  have herrcode : t.errcode = v.errcode := by rw [hframe]
  exact ⟨t, ht, hmatched.mpr ⟨k, _, hlo, hhi, hposition, hcandidate⟩, herr, herrcode⟩

end Sys2Proof.Machine

namespace Sys2Proof.Machine

/-! ### Which completions fail, and how (60_exceptions.md R260, R261) -/

/-- The cause of each error a completion can report (60_exceptions.md R261); two of the kinds have none. -/
def State.FailsWith (s : State) : ErrKind → Prop
  | .noSecretSet => s.secret = none ∧ ∃ i, decode s.cmdLatch = .ok i ∧ i.readsSecret = true
  | .invalidSecretFormat => False
  | .invalidSecretLength => ∃ gen, decode s.cmdLatch = .ok (.keyset gen) ∧ badKeyLength gen s.keylen.toNat
  | .unsupportedPlatform => False
  | .illegalCommand => s.cmdLatch ∉ tenWords

/-- The state a failing completion leaves: the failure alone, after KEYSET's scrubbing where KEYSET fails
(60_exceptions.md R260, 40_key.md R124). -/
def State.failed (s : State) : ErrKind → State
  | .invalidSecretLength => s.scrub.failWith .invalidSecretLength
  | e => s.failWith e

@[simp] theorem State.failed_err (s : State) (e : ErrKind) : (s.failed e).err = true := by cases e <;> rfl

@[simp] theorem State.failed_errcode (s : State) (e : ErrKind) : (s.failed e).errcode = e.code := by cases e <;> rfl

theorem State.failed_frame (s : State) (e : ErrKind) : s.failed e = { s with
    stage := (s.failed e).stage, keylen := (s.failed e).keylen, err := true, errcode := (s.failed e).errcode
    busy := false, done := true } := by
  cases e <;> rfl

theorem State.FailsWith.raised {s : State} {e : ErrKind} (h : s.FailsWith e) : e.raised := by
  cases e with
  | noSecretSet => exact .inl rfl
  | invalidSecretLength => exact .inr (.inl rfl)
  | illegalCommand => exact .inr (.inr rfl)
  | invalidSecretFormat => exact h.elim
  | unsupportedPlatform => exact h.elim

theorem ErrKind.code_injective (e e' : ErrKind) (h : e.code = e'.code) : e = e' := by
  revert h
  cases e <;> cases e' <;> decide

/-- A cause is sufficient for its failure. -/
theorem completion_of_failsWith (s : State) (e : ErrKind) (h : s.FailsWith e) :
    completion s = .next (s.failed e) := by
  cases e with
  | noSecretSet =>
    obtain ⟨hs, i, hd, hi⟩ := h
    exact (completion_ok s i hd).trans (exec_without_secret i s hi hs)
  | invalidSecretLength =>
    obtain ⟨gen, hd, hk⟩ := h
    exact (completion_ok s (.keyset gen) hd).trans (exec_keyset_refused s gen hk)
  | illegalCommand => exact completion_illegal s h
  | invalidSecretFormat => exact h.elim
  | unsupportedPlatform => exact h.elim

/-- Without a cause the completion reports nothing: each failing case of the commands has its cause. -/
theorem completion_without_cause (s t : State) (h : completion s = .next t) (hno : ∀ e, ¬ s.FailsWith e) :
    t.err = s.err ∧ t.errcode = s.errcode := by
  have hlegal : s.cmdLatch ∈ tenWords := Decidable.not_not.mp (hno .illegalCommand)
  obtain ⟨i, hd⟩ := exists_decode_of_mem_tenWords s.cmdLatch hlegal
  have he : exec i s = .next t := (completion_ok s i hd).symm.trans h
  rcases exec_cases i s with ⟨gen, rfl, hk, _⟩ | ⟨_, _, _, e⟩ | ⟨_, _, e⟩ | ⟨hi, hs, _⟩ |
    ⟨_, _, _, _, _, _, _, _, e⟩ | ⟨_, _, _, _, _, _, _, _, e⟩ | ⟨_, _, _, _, _, _, e⟩
  on_goal 1 => exact absurd ⟨gen, hd, (keyLengthRefused_iff gen _).mp hk⟩ (hno .invalidSecretLength)
  on_goal 3 => exact absurd ⟨hs, i, hd, hi⟩ (hno .noSecretSet)
  all_goals
    cases e.symm.trans he
    exact ⟨rfl, rfl⟩

/-- A completion fails from its cause, or reports nothing. -/
theorem completion_failed_or_not (s t : State) (h : completion s = .next t) :
    (∃ e, s.FailsWith e ∧ t = s.failed e) ∨ (t.err = s.err ∧ t.errcode = s.errcode) := by
  by_cases hcause : ∃ e, s.FailsWith e
  · obtain ⟨e, he⟩ := hcause
    cases (completion_of_failsWith s e he).symm.trans h
    exact .inl ⟨e, he, rfl⟩
  · exact .inr (completion_without_cause s t h (not_exists.mp hcause))

/-- The code determines the kind, so from ERRCODE = 0 a completion reports an error exactly from its cause. -/
theorem completion_errcode_iff (s t : State) (h : completion s = .next t) (h0 : s.errcode = 0#8) (e : ErrKind) :
    t.errcode = e.code ↔ s.FailsWith e := by
  constructor
  · intro hcode
    rcases completion_failed_or_not s t h with ⟨e', he', rfl⟩ | ⟨-, hkept⟩
    · rw [State.failed_errcode] at hcode
      exact ErrKind.code_injective e' e hcode ▸ he'
    · exact absurd (hcode.symm.trans (hkept.trans h0)) e.code_ne_zero
  · intro he
    cases (completion_of_failsWith s e he).symm.trans h
    exact s.failed_errcode e

/-- Settles O54: ERR rises only by a failure, whose frame is `failed_frame`; what it does to the staging buffer and
KEYLEN is the rule of every completion. -/
theorem failingCompletionHasNoOtherEffect : Obligations.FailingCompletionHasNoOtherEffect := by
  intro s t rest hm hr hb h hs ht
  obtain ⟨hkeyset, hother⟩ := onlyKeysetScrubsAndAlwaysDoes s t rest hm hr hb h
  have hc : completion { s with agenda := rest } = .next t := (step_completion s rest hm hr hb).symm.trans h
  rcases completion_failed_or_not _ t hc with ⟨e, he, rfl⟩ | ⟨hkept, -⟩
  · refine ⟨State.failed_frame _ e, ?_, ?_⟩
    · rw [State.failed_errcode]
      exact he.raised
    · by_cases hk : ∃ gen, decode s.cmdLatch = .ok (.keyset gen)
      · exact .inl ⟨hk, hkeyset hk⟩
      · exact .inr ⟨hk, hother hk⟩
  · exact absurd (hs.symm.trans (hkept.symm.trans ht)) nofun

/-- Settles O56: by the invariant a command in progress has ERRCODE = 0 and ERR = 0. -/
theorem errorCodeTellsTheCause : Obligations.ErrorCodeTellsTheCause := by
  intro s t rest hi hm hr hb h
  obtain ⟨-, herr, -, hcode, -⟩ := hi.busy hb
  have hc : completion { s with agenda := rest } = .next t := (step_completion s rest hm hr hb).symm.trans h
  have hcause := completion_errcode_iff _ t hc hcode
  refine ⟨hcause .illegalCommand, hcause .noSecretSet, hcause .invalidSecretLength, ?_⟩
  rcases completion_failed_or_not _ t hc with ⟨e, -, rfl⟩ | ⟨hkept, hkeptCode⟩
  · simp [e.code_ne_zero]
  · exact iff_of_true (hkeptCode.trans hcode) (hkept.trans herr)

/-- Settles O33: the failure the three commands share. -/
theorem hashCommandsNeedASecret : Obligations.HashCommandsNeedASecret :=
  fun s i => exec_without_secret i s

/-! ### The interrupt output (60_exceptions.md R270) -/

/-- `irq` is low while neither of its flags is set. -/
theorem State.irq_eq_false (s : State) (hdone : s.done = false) (herr : s.err = false) : s.irq = false := by
  simp [State.irq, hdone, herr]

theorem State.accept_irq (s : State) (w : Word) : (s.accept w).irq = false :=
  State.irq_eq_false _ rfl rfl

/-- An acknowledgement of both bits lowers `irq` (60_exceptions.md R277). -/
theorem State.acknowledge_irq (s : State) (v : Word) (hdone : v.getLsbD 1 = true) (herr : v.getLsbD 2 = true) :
    (s.acknowledge v).irq = false :=
  State.irq_eq_false _ (by simp [hdone]) (by simp [herr])

/-- An acknowledgement of any bits raises no interrupt. -/
theorem State.irq_of_acknowledge_irq (s : State) (v : Word) (h : (s.acknowledge v).irq = true) : s.irq = true := by
  simp only [State.irq, State.acknowledge_ie, State.acknowledge_done, State.acknowledge_err, Bool.or_eq_true,
    Bool.and_eq_true] at h ⊢
  exact h.imp (fun ⟨hie, hdone, _⟩ => ⟨hie, hdone⟩) (fun ⟨hie, herr, _⟩ => ⟨hie, herr⟩)

/-- A write that raises `irq` is one to IE while idle. -/
theorem regWrite_irq (s : State) (v : Word) (r : Reg) (hs : s.irq = false) (ht : (regWrite s v r).irq = true) :
    s.busy = false ∧ r = .ie := by
  rcases regWrite_cases s v r with ⟨_, e⟩ | ⟨hb, ⟨_, e⟩ | ⟨_, e⟩ | ⟨hr, e⟩ | ⟨_, _, e⟩ | ⟨_, _, e⟩ | ⟨_, e⟩ |
    ⟨_, e⟩ | ⟨_, e⟩ | ⟨_, e⟩ | ⟨_, _, e⟩ | ⟨_, e⟩ | ⟨_, _, e⟩ | e⟩ <;> rw [e] at ht
  on_goal 2 => exact absurd ((s.accept_irq v).symm.trans ht) nofun
  on_goal 2 => exact absurd (hs.symm.trans (s.irq_of_acknowledge_irq v ht)) nofun
  on_goal 2 => exact ⟨hb, hr⟩
  all_goals exact absurd (hs.symm.trans ht) nofun

/-- A step that raises `irq` completes a command or takes a write to IE while idle. -/
theorem step_raises_irq (s t : State) (h : step s = .next t) (hs : s.irq = false) (ht : t.irq = true) :
    (s.busy = true ∧ s.rst = false ∧ ∃ rest, engineMoves s rest) ∨
    (s.busy = false ∧ ∃ (v : Word) (rest : List Event), s.agenda = .write 0x010 4 v :: rest) := by
  rcases step_cases s t h with ⟨rest, hm, he⟩ | ⟨_, _, _, _, _, _, rfl⟩ | ⟨off, v, rest, ha, h4, hw, _, rfl⟩ |
    ⟨_, _, _, rfl⟩ | ⟨b, rest, _, rfl⟩
  · rcases engineTurn_cases { s with agenda := rest } with ⟨_, e⟩ | ⟨hb, hr, _⟩ | ⟨hb, hr, _⟩
    · cases e.symm.trans he
      exact absurd (hs.symm.trans ht) nofun
    · exact .inl ⟨hb, hr, rest, hm⟩
    · exact .inl ⟨hb, hr, rest, hm⟩
  · exact absurd (hs.symm.trans ht) nofun
  · obtain ⟨hb, hr⟩ := regWrite_irq { s with agenda := rest } v (regAt off) hs ht
    obtain rfl := eq_offset_of_regAt off .ie h4 hw hr nofun
    exact .inr ⟨hb, v, rest, ha⟩
  · exact absurd (hs.symm.trans ht) nofun
  · rcases driveRst_cases { s with agenda := rest } b with ⟨_, _, e⟩ | ⟨_, e⟩ <;> rw [e] at ht
    · exact absurd (hs.symm.trans ht) nofun
    · exact absurd ((State.irq_eq_false _ rfl rfl).symm.trans ht) nofun

/-- Settles O52: what raises `irq`, then the two writes that lower it and reset, each by its own rule. -/
theorem interruptRisesAndFallsAsSaid : Obligations.InterruptRisesAndFallsAsSaid := by
  refine ⟨step_raises_irq, ?_, ?_, rfl⟩
  · intro s rest v ha hr hb hdone herr
    exact ⟨_, step_writeIdle s rest .status v ha hr hb, State.acknowledge_irq _ v hdone herr, rfl, rfl⟩
  · intro s rest w ha hr hb
    exact ⟨_, step_accept s rest w ha hr hb, State.accept_irq _ w⟩

end Sys2Proof.Machine

namespace Sys2Proof.Machine

/-! ### The platform's reset (70_reset_and_hazards.md R300) -/

/-- Asserting `rst`, or releasing it while it is asserted, resets the block. -/
theorem driveRst_of_asserted_or_held (s : State) (b : Bool) (h : b = true ∨ s.rst = true) :
    driveRst s b = { s.resetBlock with rst := b } :=
  if_pos ((Bool.or_eq_true b s.rst).mpr h)

/-- The step that asserts `rst`, or releases it while it is asserted. -/
theorem step_reset (s : State) (rest : List Event) (b : Bool) (ha : s.agenda = .rst b :: rest)
    (h : b = true ∨ s.rst = true) :
    step s = .next { s.resetBlock with rst := b, agenda := rest } :=
  (step_cons s (.rst b) rest ha).trans
    (congrArg Host.Outcome.next (driveRst_of_asserted_or_held { s with agenda := rest } b h))

/-- Settles O22: the reset state is a reset block, and so is the state after a step that asserts or releases `rst`. -/
theorem resetReturnsEveryRegister : Obligations.ResetReturnsEveryRegister := by
  refine ⟨State.resetBlock_atResetValues State.reset false, ?_⟩
  intro s rest b ha h
  exact ⟨_, step_reset s rest b ha h, State.resetBlock_atResetValues { s with agenda := rest } b, rfl, rfl, rfl⟩

end Sys2Proof.Machine
